-- ==== Sys2Proof/Word.lean ====
section
/-! DEFINITION. The word types of the keypad/LCD block (00_scope R11, 10_state R36, 30_encoding R104). -/

namespace Sys2Proof

/-- `u8`: the slot, a character, an opcode, a display byte (R11, R31). -/
abbrev Byte := BitVec 8

/-- `u32`: one register role, or the operand of a raw LCD write (R11, R36). -/
abbrev Word := BitVec 32

/-- Format LB: `w[9] = RS`, `w[8] = RW`, `w[7:0] = D` (R104). -/
abbrev BusWord := BitVec 10

/-- A column line `c` in 0..3 (R103). -/
abbrev Col := Fin 4

/-- A logical row `r` in 0..3 (R140). -/
abbrev Row := Fin 4

/-- A keypad pin `p` in 0..7 (R143). -/
abbrev Pin := Fin 8

/-- A keypad line: column `c` is line `c`, row `r` is line `4 + r`; P17 puts each on a pin (R143). -/
abbrev Line := Fin 8

/-- A pin of the LCD's port: its number is its bit in the port's 32-bit output register (R36, R48). -/
abbrev PortPin := Fin 32

end Sys2Proof
end

