-- ==== Sys2Proof/Syntax.lean ====
section
/-! DEFINITION. The block's instructions, one constructor per row of spec/opcode_table.json: the host commands
(format HC, R100, R101, R109), the interrupt events (format IRQ, R103) and the LCD bus words (format LB, R104, R105). -/

namespace Sys2Proof

/-- Every instruction the block executes. Operands are typed as R108 gives them; the don't-care bits of a bus
word (R110) are kept, so that no bit of an encoding is lost. -/
inductive Instr where
  /-- HC 0x00, keypad `initialize()` (R130). -/
  | kpdInit
  /-- HC 0x01, `clear()` (R131). -/
  | kpdClear
  /-- HC 0x02, `get()` (R132). -/
  | kpdGet
  /-- HC 0x03, `wait()` (R133). -/
  | kpdWait
  /-- HC 0x04, `get_wait()` (R134). -/
  | kpdGetWait
  /-- HC 0x05, `get_char()` (R135). -/
  | kpdGetChar
  /-- HC 0x06, `get_char_wait()` (R136). -/
  | kpdGetCharWait
  /-- HC 0x07, `to_char(key)`; `key` is an `Int32`, two's complement (R146, R108). -/
  | kpdToChar (key : Word)
  /-- HC 0x08, `set_char_lut(table)`; exactly 17 bytes (R147, R108). -/
  | kpdSetCharLut (table : Vector Byte 17)
  /-- HC 0x80, display `initialize()` (R189). -/
  | lcdInit
  /-- HC 0x81, `clear()` (R191). -/
  | lcdClear
  /-- HC 0x82, `cursor_home()` (R192). -/
  | lcdHome
  /-- HC 0x83, `cursor_set(x, y)` (R195). -/
  | lcdCursorSet (x y : Byte)
  /-- HC 0x84, `cursor_show()` (R193). -/
  | lcdCursorShow
  /-- HC 0x85, `cursor_hide()` (R194). -/
  | lcdCursorHide
  /-- HC 0x86, `print`, with the already formatted characters before the first 0x00 (R199, R108). -/
  | lcdPrint (s : List Byte)
  /-- HC 0x87, the raw instruction write (R187). -/
  | lcdWriteInstr (v : Word)
  /-- HC 0x88, the raw character write (R188). -/
  | lcdWriteData (v : Word)
  /-- HC 0x09..0x7F, reserved (R109). -/
  | hcReservedLow (op : Byte)
  /-- HC 0x89..0xFF, reserved (R109). -/
  | hcReservedHigh (op : Byte)
  /-- IRQ 0b00, the handler of column line 0 (R148). -/
  | kpdIsrCol0
  /-- IRQ 0b01, the handler of column line 1 (R148). -/
  | kpdIsrCol1
  /-- IRQ 0b10, the handler of column line 2 (R148). -/
  | kpdIsrCol2
  /-- IRQ 0b11, the handler of column line 3 (R148). -/
  | kpdIsrCol3
  /-- LB `00 00000001` (R223). -/
  | clearDisplay
  /-- LB `00 0000001x` (R224); `x` is the don't-care bit. -/
  | returnHome (x : Bool)
  /-- LB `00 000001 ID SH` (R225). -/
  | entryModeSet (id sh : Bool)
  /-- LB `00 00001 D C B` (R226). -/
  | displayControl (d c b : Bool)
  /-- LB `00 0001 SC RL xx` (R227). -/
  | cursorDisplayShift (sc rl : Bool) (x : BitVec 2)
  /-- LB `00 001 DL N F xx` (R228). -/
  | functionSet (dl n f : Bool) (x : BitVec 2)
  /-- LB `00 01 ACG` (R229). -/
  | setCgramAddr (a : BitVec 6)
  /-- LB `00 1 ADD` (R230). -/
  | setDdramAddr (a : BitVec 7)
  /-- LB `10 D` (R231). -/
  | writeData (b : Byte)
  /-- LB `01 xxxxxxxx` (R232). -/
  | readBfAc (x : Byte)
  /-- LB `11 xxxxxxxx` (R233). -/
  | readData (x : Byte)
  deriving DecidableEq, Repr

/-- The three formats of R100, R103 and R104. -/
inductive Format where
  | hc
  | irq
  | lb
  deriving DecidableEq, Repr

/-- The format each instruction is encoded in (30_encoding §1). -/
def Instr.format : Instr → Format
  | .kpdInit | .kpdClear | .kpdGet | .kpdWait | .kpdGetWait | .kpdGetChar | .kpdGetCharWait
  | .kpdToChar _ | .kpdSetCharLut _ | .lcdInit | .lcdClear | .lcdHome | .lcdCursorSet _ _
  | .lcdCursorShow | .lcdCursorHide | .lcdPrint _ | .lcdWriteInstr _ | .lcdWriteData _
  | .hcReservedLow _ | .hcReservedHigh _ => .hc
  | .kpdIsrCol0 | .kpdIsrCol1 | .kpdIsrCol2 | .kpdIsrCol3 => .irq
  | .clearDisplay | .returnHome _ | .entryModeSet _ _ | .displayControl _ _ _
  | .cursorDisplayShift _ _ _ | .functionSet _ _ _ _ | .setCgramAddr _ | .setDdramAddr _
  | .writeData _ | .readBfAc _ | .readData _ => .lb

end Sys2Proof
end

