-- ==== Sys2Proof/WellFormed.lean ====
section
/-! DEFINITION. Which terms of `Instr` are instructions of the block: the checks R108 and R109 put on operands that
the types do not carry already. -/

namespace Sys2Proof

/-- A reserved opcode of the low range, `0x09`–`0x7F` (R109). -/
def reservedLow (op : Byte) : Bool := 0x09 ≤ op.toNat && op.toNat ≤ 0x7F

/-- A reserved opcode of the high range, `0x89`–`0xFF` (R109). -/
def reservedHigh (op : Byte) : Bool := 0x89 ≤ op.toNat

/-- A printed string ends at its first `0x00`, which is excluded from it (R108). -/
def noNul (s : List Byte) : Bool := s.all (· != 0)

/-- Well-formed instructions. Every operand type carries its own range (`Vector Byte 17` a table, `BitVec` a field)
but for the three checks here. -/
def Instr.wellFormed : Instr → Bool
  | .lcdPrint s => noNul s
  | .hcReservedLow op => reservedLow op
  | .hcReservedHigh op => reservedHigh op
  | .kpdInit | .kpdClear | .kpdGet | .kpdWait | .kpdGetWait | .kpdGetChar | .kpdGetCharWait
  | .kpdToChar _ | .kpdSetCharLut _ | .lcdInit | .lcdClear | .lcdHome | .lcdCursorSet _ _
  | .lcdCursorShow | .lcdCursorHide | .lcdWriteInstr _ | .lcdWriteData _
  | .kpdIsrCol0 | .kpdIsrCol1 | .kpdIsrCol2 | .kpdIsrCol3
  | .clearDisplay | .returnHome _ | .entryModeSet _ _ | .displayControl _ _ _
  | .cursorDisplayShift _ _ _ | .functionSet _ _ _ _ | .setCgramAddr _ | .setDdramAddr _
  | .writeData _ | .readBfAc _ | .readData _ => true

end Sys2Proof
end

