-- ==== Sys2Proof/Decode.lean ====
section
/-! DEFINITION. The decoder, total on every encoding of the three formats (30_encoding), and after it the encoder. -/

namespace Sys2Proof

/-- Why an encoding gives no instruction. -/
inductive DecodeError where
  /-- The command port does not hold all bytes of a command yet (R112). -/
  | truncated
  /-- The bus word `RS = 0, RW = 0, D = 0x00`: no instruction class (R110, R234). -/
  | noBusClass
  deriving DecidableEq, Repr

/-! ### Operand assembly (R108, R112) -/

/-- A `u32` or `Int32` operand: four bytes, least significant first (R112). -/
def word32 (b0 b1 b2 b3 : Byte) : Word := b3 ++ b2 ++ b1 ++ b0

/-- The four bytes of a `u32` or `Int32`, least significant first (R112). -/
def bytes32 (w : Word) : List Byte :=
  [w.extractLsb' 0 8, w.extractLsb' 8 8, w.extractLsb' 16 8, w.extractLsb' 24 8]

/-- The first 17 bytes of `bs` as a character table (R108). -/
def tableOf (bs : List Byte) : Vector Byte 17 :=
  #v[bs.getD 0 0, bs.getD 1 0, bs.getD 2 0, bs.getD 3 0, bs.getD 4 0, bs.getD 5 0, bs.getD 6 0,
    bs.getD 7 0, bs.getD 8 0, bs.getD 9 0, bs.getD 10 0, bs.getD 11 0, bs.getD 12 0,
    bs.getD 13 0, bs.getD 14 0, bs.getD 15 0, bs.getD 16 0]

/-- A string is its bytes up to the first `0x00`, and the `0x00` (R112): the string and the bytes after it, or
`none` where no `0x00` has come yet. -/
def splitString : List Byte → Option (List Byte × List Byte)
  | [] => none
  | b :: bs =>
    if b = 0 then some ([], bs)
    else match splitString bs with
      | some (s, rest) => some (b :: s, rest)
      | none => none

/-! ### Decoders -/

/-- A command with a 32-bit operand. -/
def decodeWordOperand (f : Word → Instr) : List Byte → Except DecodeError (Instr × List Byte)
  | b0 :: b1 :: b2 :: b3 :: rest => .ok (f (word32 b0 b1 b2 b3), rest)
  | _ => .error .truncated

/-- `LCD_CURSOR_SET`'s two operand bytes, x then y. -/
def decodeCursorOperands : List Byte → Except DecodeError (Instr × List Byte)
  | x :: y :: rest => .ok (.lcdCursorSet x y, rest)
  | _ => .error .truncated

/-- `KPD_SET_CHAR_LUT`'s 17 operand bytes. -/
def decodeTableOperand (bs : List Byte) : Except DecodeError (Instr × List Byte) :=
  if bs.length < 17 then .error .truncated else .ok (.kpdSetCharLut (tableOf bs), bs.drop 17)

/-- `LCD_PRINT`'s string. -/
def decodeStringOperand (bs : List Byte) : Except DecodeError (Instr × List Byte) :=
  match splitString bs with
  | some (s, rest) => .ok (.lcdPrint s, rest)
  | none => .error .truncated

/-- Format HC: the opcode byte selects the operation (R101), and no other value selects one (R109). -/
def decodeHc : List Byte → Except DecodeError (Instr × List Byte)
  | [] => .error .truncated
  | op :: bs =>
    match op.toNat with
    | 0x00 => .ok (.kpdInit, bs)
    | 0x01 => .ok (.kpdClear, bs)
    | 0x02 => .ok (.kpdGet, bs)
    | 0x03 => .ok (.kpdWait, bs)
    | 0x04 => .ok (.kpdGetWait, bs)
    | 0x05 => .ok (.kpdGetChar, bs)
    | 0x06 => .ok (.kpdGetCharWait, bs)
    | 0x07 => decodeWordOperand .kpdToChar bs
    | 0x08 => decodeTableOperand bs
    | 0x80 => .ok (.lcdInit, bs)
    | 0x81 => .ok (.lcdClear, bs)
    | 0x82 => .ok (.lcdHome, bs)
    | 0x83 => decodeCursorOperands bs
    | 0x84 => .ok (.lcdCursorShow, bs)
    | 0x85 => .ok (.lcdCursorHide, bs)
    | 0x86 => decodeStringOperand bs
    | 0x87 => decodeWordOperand .lcdWriteInstr bs
    | 0x88 => decodeWordOperand .lcdWriteData bs
    | _ => if reservedLow op then .ok (.hcReservedLow op, bs) else .ok (.hcReservedHigh op, bs)

/-- Format IRQ: the 2-bit line number (R103). -/
def decodeIrq (c : BitVec 2) : Instr :=
  match c.toNat with
  | 0 => .kpdIsrCol0
  | 1 => .kpdIsrCol1
  | 2 => .kpdIsrCol2
  | _ => .kpdIsrCol3

/-- Format LB: `RS` and `RW` select reads, data writes and instructions (R104, R110), and the class of an
instruction byte is set by its most significant 1 bit (R105). -/
def decodeBus (w : BusWord) : Except DecodeError Instr :=
  let d : Byte := w.extractLsb' 0 8
  if w.getLsbD 8 then (if w.getLsbD 9 then .ok (.readData d) else .ok (.readBfAc d))
  else if w.getLsbD 9 then .ok (.writeData d)
  else if d.getLsbD 7 then .ok (.setDdramAddr (d.extractLsb' 0 7))
  else if d.getLsbD 6 then .ok (.setCgramAddr (d.extractLsb' 0 6))
  else if d.getLsbD 5 then
    .ok (.functionSet (d.getLsbD 4) (d.getLsbD 3) (d.getLsbD 2) (d.extractLsb' 0 2))
  else if d.getLsbD 4 then
    .ok (.cursorDisplayShift (d.getLsbD 3) (d.getLsbD 2) (d.extractLsb' 0 2))
  else if d.getLsbD 3 then
    .ok (.displayControl (d.getLsbD 2) (d.getLsbD 1) (d.getLsbD 0))
  else if d.getLsbD 2 then .ok (.entryModeSet (d.getLsbD 1) (d.getLsbD 0))
  else if d.getLsbD 1 then .ok (.returnHome (d.getLsbD 0))
  else if d.getLsbD 0 then .ok .clearDisplay
  else .error .noBusClass

/-- An encoding of one of the three formats: a command's bytes, a line number, or a bus word. -/
inductive Code where
  | hc (bytes : List Byte)
  | irq (c : BitVec 2)
  | lb (w : BusWord)
  deriving DecidableEq, Repr

/-- The instruction an encoding stands for, and the command bytes after it. -/
def decode : Code → Except DecodeError (Instr × List Byte)
  | .hc bytes => decodeHc bytes
  | .irq c => .ok (decodeIrq c, [])
  | .lb w => match decodeBus w with
    | .ok i => .ok (i, [])
    | .error e => .error e

/-! ### The encoder -/

/-- The opcode byte of a host command (R101); instructions of the other formats have none and answer 0. -/
def Instr.opcode : Instr → Byte
  | .kpdInit => 0x00
  | .kpdClear => 0x01
  | .kpdGet => 0x02
  | .kpdWait => 0x03
  | .kpdGetWait => 0x04
  | .kpdGetChar => 0x05
  | .kpdGetCharWait => 0x06
  | .kpdToChar _ => 0x07
  | .kpdSetCharLut _ => 0x08
  | .lcdInit => 0x80
  | .lcdClear => 0x81
  | .lcdHome => 0x82
  | .lcdCursorSet _ _ => 0x83
  | .lcdCursorShow => 0x84
  | .lcdCursorHide => 0x85
  | .lcdPrint _ => 0x86
  | .lcdWriteInstr _ => 0x87
  | .lcdWriteData _ => 0x88
  | .hcReservedLow op => op
  | .hcReservedHigh op => op
  | .kpdIsrCol0 | .kpdIsrCol1 | .kpdIsrCol2 | .kpdIsrCol3
  | .clearDisplay | .returnHome _ | .entryModeSet _ _ | .displayControl _ _ _
  | .cursorDisplayShift _ _ _ | .functionSet _ _ _ _ | .setCgramAddr _ | .setDdramAddr _
  | .writeData _ | .readBfAc _ | .readData _ => 0

/-- One bit of a bus word. -/
def bit (b : Bool) : BitVec 1 := BitVec.ofBool b

/-- A bus word from its register-select line, its read/write line and its byte (R104). -/
def busWord (rs rw : Bool) (d : Byte) : BusWord := bit rs ++ bit rw ++ d

/-- The encoding of an instruction (R101, R103, R105). -/
def encode (i : Instr) : Code :=
  match i with
  | .kpdIsrCol0 => .irq 0
  | .kpdIsrCol1 => .irq 1
  | .kpdIsrCol2 => .irq 2
  | .kpdIsrCol3 => .irq 3
  | .clearDisplay => .lb (busWord false false 0b00000001#8)
  | .returnHome x => .lb (busWord false false (0b0000001#7 ++ bit x))
  | .entryModeSet id sh => .lb (busWord false false (0b000001#6 ++ bit id ++ bit sh))
  | .displayControl d c b => .lb (busWord false false (0b00001#5 ++ bit d ++ bit c ++ bit b))
  | .cursorDisplayShift sc rl x => .lb (busWord false false (0b0001#4 ++ bit sc ++ bit rl ++ x))
  | .functionSet dl n f x => .lb (busWord false false (0b001#3 ++ bit dl ++ bit n ++ bit f ++ x))
  | .setCgramAddr a => .lb (busWord false false (0b01#2 ++ a))
  | .setDdramAddr a => .lb (busWord false false (0b1#1 ++ a))
  | .writeData b => .lb (busWord true false b)
  | .readBfAc x => .lb (busWord false true x)
  | .readData x => .lb (busWord true true x)
  | .kpdInit => .hc [0x00]
  | .kpdClear => .hc [0x01]
  | .kpdGet => .hc [0x02]
  | .kpdWait => .hc [0x03]
  | .kpdGetWait => .hc [0x04]
  | .kpdGetChar => .hc [0x05]
  | .kpdGetCharWait => .hc [0x06]
  | .kpdToChar key => .hc (0x07 :: bytes32 key)
  | .kpdSetCharLut table => .hc (0x08 :: table.toList)
  | .lcdInit => .hc [0x80]
  | .lcdClear => .hc [0x81]
  | .lcdHome => .hc [0x82]
  | .lcdCursorSet x y => .hc [0x83, x, y]
  | .lcdCursorShow => .hc [0x84]
  | .lcdCursorHide => .hc [0x85]
  | .lcdPrint s => .hc (0x86 :: (s ++ [0]))
  | .lcdWriteInstr v => .hc (0x87 :: bytes32 v)
  | .lcdWriteData v => .hc (0x88 :: bytes32 v)
  | .hcReservedLow op => .hc [op]
  | .hcReservedHigh op => .hc [op]

/-! ### The opcode table's words -/

/-- The longest fixed operand list (`KPD_SET_CHAR_LUT`, 17 bytes). -/
def longestOperands : Nat := 17

/-- `n` bytes of `w`, least significant first. -/
def bytesOf : Nat → Nat → List Byte
  | 0, _ => []
  | n + 1, w => BitVec.ofNat 8 w :: bytesOf n (w / 256)

/-- The table's word as an encoding (log 25): up to 2 bits a line number (IRQ rows), 9 to 16 bits a bus word (the
10-bit LB rows in whole bytes), and otherwise a command's bytes, first byte lowest, followed by operand bytes 0. -/
def tableCode (nbits w : Nat) : Code :=
  if nbits ≤ 2 then .irq (BitVec.ofNat 2 w)
  else if 8 < nbits && nbits ≤ 16 then .lb (BitVec.ofNat 10 w)
  else .hc (bytesOf ((nbits + 7) / 8) w ++ List.replicate longestOperands 0)

/-- The instruction this decoder reads from the table's word. A bus word has 10 bits, a line number 2. -/
def decodeTableWord (nbits w : Nat) : Option Instr :=
  match tableCode nbits w with
  | .lb b => if w < 1024 then (match decodeBus b with | .ok i => some i | .error _ => none) else none
  | .irq c => if w < 4 then some (decodeIrq c) else none
  | .hc bytes => match decodeHc bytes with
    | .ok (i, _) => some i
    | .error _ => none

/-- The bytes of exactly the first command of `bytes`, to be put into the command port. -/
def firstCommand (bytes : List Byte) : List Byte :=
  match decodeHc bytes with
  | .ok (_, rest) => bytes.take (bytes.length - rest.length)
  | .error _ => bytes

end Sys2Proof
end

