-- ==== Sys2Proof/Config.lean ====
section
/-! DEFINITION. The configuration of a block (00_scope R9, R10: every OPEN parameter is a field; 10_state R37, R42, R46,
R48: so is every OPEN bit position) and the free values (opaque constants with no body) that stand for the spec's
`draw()`, for "any value", and for the OPEN parameters of the board that `State.reset` stands for. -/

namespace Sys2Proof

/-- The register roles of 10_state R36. -/
inductive Role where
  | clken | mode | pull | odr | idr | mux | imr | rtsr | pr | irqen | lmode | lodr
  deriving DecidableEq, Repr

/-- `RowIdx = Row(0..3) | NoMatch` (10_state R35). -/
inductive RowIdx where
  | row (r : Row)
  | noMatch
  deriving DecidableEq, Repr

/-- P18 `ROWLUT_INDEX0`: the two meanings the all-zero row sample can have (R9, R35). -/
inductive RowlutIndex0 where
  | noMatch
  | row0
  deriving DecidableEq, Repr

/-- The parameters whose breach the spec refuses (R10, R85; the record of `R_BAD_CONFIG`, R263). -/
inductive Param where
  | tShort | tLong | regAddr
  deriving DecidableEq, Repr

/-! ### Parameters under a constraint

Each is written against its constraint, so that whether it is kept can be read off even where the value is open.
DESIGN CHOICE (log 36): a duration is a whole number of microseconds, although the spec admits any duration in R10's
ranges (37.5 µs is one). -/

/-- P12 `T_SHORT`, any number of microseconds, split at the ends of R10's "`10 µs ≤ T_SHORT < 100 µs`". -/
inductive ShortTime where
  /-- `n` µs: too short. -/
  | below (n : Fin 10)
  /-- `10 + n` µs: in the range. -/
  | within (n : Fin 90)
  /-- `100 + n` µs: too long. -/
  | above (n : Nat)
  deriving DecidableEq, Repr

/-- P13 `T_LONG`, any number of microseconds, split at R10's "`T_LONG > 1000 µs`". -/
inductive LongTime where
  /-- `n` µs: too short. -/
  | below (n : Fin 1001)
  /-- `1001 + n` µs: in the range. -/
  | within (n : Nat)
  deriving DecidableEq, Repr

/-- P22 `REG_ADDR(role)`, any address, as a word number and a byte within the word (R85). -/
structure RegAddr where
  word : Nat
  byte : Fin 4
  deriving DecidableEq, Repr

/-- `T_SHORT` in microseconds. -/
def ShortTime.micros : ShortTime → Nat
  | .below n => n.val
  | .within n => 10 + n.val
  | .above n => 100 + n

/-- `T_LONG` in microseconds. -/
def LongTime.micros : LongTime → Nat
  | .below n => n.val
  | .within n => 1001 + n

/-- The address itself. -/
def RegAddr.value (a : RegAddr) : Nat := 4 * a.word + a.byte.val

/-! ### Positions -/

/-- The OPEN positions of the fields the block owns in its 32-bit registers. -/
structure Layout where
  /-- `CLKEN_BIT(KPD_PORT_CLK)` (R37). -/
  clkKpdPort : Fin 32
  /-- `CLKEN_BIT(MUX_CLK)` (R37). -/
  clkMux : Fin 32
  /-- `CLKEN_BIT(LCD_PORT_CLK)` where the LCD has a port of its own (R37). -/
  clkLcdPort : Fin 32
  /-- The width of a `MUX_SEL` field (R42). -/
  muxWidth : Nat
  /-- The lowest bit of `MUX_SEL[c]` (R42). -/
  muxPos : Vector (Fin 32) 4
  /-- `KPD_PORT_CODE` (R42). -/
  kpdPortCode : Nat
  /-- The bit of `IRQEN[c]` (R46). -/
  irqenBit : Vector (Fin 32) 4
  /-- `LCD_PIN(RS)`, any pin of the LCD's port (R48; log 7). -/
  lcdRs : PortPin
  /-- `LCD_PIN(RW)` (R48). -/
  lcdRw : PortPin
  /-- `LCD_PIN(E)` (R48). -/
  lcdE : PortPin
  /-- `LCD_PIN(D0)` to `LCD_PIN(D7)` (R48). -/
  lcdD : Vector PortPin 8
  deriving DecidableEq, Repr, Inhabited

/-- The lowest bit of `MUX_SEL[c]`. -/
def Layout.muxAt (l : Layout) (c : Col) : Nat := (l.muxPos[c]).val

/-- The bit of `IRQEN[c]`. -/
def Layout.irqAt (l : Layout) (c : Col) : Nat := (l.irqenBit[c]).val

/-- `LCD_PIN(D[i])`. -/
def Layout.dataPin (l : Layout) (i : Fin 8) : PortPin := l.lcdD[i]

/-- The eleven LCD lines' pins (R48). -/
def Layout.lcdPins (l : Layout) : List PortPin := l.lcdRs :: l.lcdRw :: l.lcdE :: l.lcdD.toList

/-- Different fields stand at different places, and a select field holds `KPD_PORT_CODE`. -/
abbrev Layout.Wired (l : Layout) : Prop :=
  [l.clkKpdPort, l.clkMux, l.clkLcdPort].Nodup ∧ l.irqenBit.toList.Nodup ∧ l.lcdPins.Nodup ∧
  0 < l.muxWidth ∧ l.kpdPortCode < 2 ^ l.muxWidth ∧ (∀ c : Col, l.muxAt c + l.muxWidth ≤ 32) ∧
  ∀ c d : Col, c ≠ d →
    l.muxAt c + l.muxWidth ≤ l.muxAt d ∨ l.muxAt d + l.muxWidth ≤ l.muxAt c

/-- Where the LCD's lines may stand (log 7): in the keypad's port on none of its eight pins (R48, R314), in a port of
their own on the sixteen pins that its mode register has a field for (R36). -/
abbrev Layout.Placed (l : Layout) (shares : Bool) : Prop :=
  ∀ p ∈ l.lcdPins, if shares then 8 ≤ p.val else p.val < 16

/-- Some positions that do not overlap, with the LCD's lines where they may stand. -/
def Layout.apart (shares : Bool) : Layout where
  clkKpdPort := 0
  clkMux := 1
  clkLcdPort := 2
  muxWidth := 1
  muxPos := #v[0, 1, 2, 3]
  kpdPortCode := 1
  irqenBit := #v[0, 1, 2, 3]
  lcdRs := if shares then 8 else 0
  lcdRw := if shares then 9 else 1
  lcdE := if shares then 10 else 2
  lcdD := if shares then #v[11, 12, 13, 14, 15, 16, 17, 18] else #v[3, 4, 5, 6, 7, 8, 9, 10]

/-- The parameters of R9 that the spec leaves OPEN or gives a choice of, and the positions it leaves OPEN. Times are
in microseconds (log 36). The parameters with one stated value (P1–P10, P24, P25) are constants of the model and no
fields. -/
structure Config where
  /-- P11 `T_DEBOUNCE`, OPEN. -/
  tDebounce : Nat
  /-- P12 `T_SHORT`, OPEN within R10's range. -/
  tShort : ShortTime
  /-- P13 `T_LONG`, OPEN within R10's range. -/
  tLong : LongTime
  /-- P14 `T_POWER_ON`, OPEN: the host's duty, read by no rule of the model (R304). -/
  tPowerOn : Nat
  /-- P15 `DEV_T_SHORT`, OPEN. -/
  devTShort : Nat
  /-- P15 `DEV_T_LONG`, OPEN. -/
  devTLong : Nat
  /-- P16 `E_PULSE_MIN`, OPEN: the host's duty, read by no rule of the model (R313). -/
  ePulseMin : Nat
  /-- P17 `COL_PIN(0..3)` and `ROW_PIN(0..3)`, in the order of the lines; "Other bindings are legal" (D3). -/
  keypadPins : Vector Pin 8
  /-- P18 `ROWLUT_INDEX0`: `NoMatch` by default, or `Row0` (R35). -/
  rowlutIndex0 : RowlutIndex0
  /-- P19 `PR_LATCH_WHILE_MASKED`, OPEN (R162). -/
  prLatchWhileMasked : Bool
  /-- P20 `IRQ_ORDER`, OPEN: the lines in the order the default scheduler prefers them (R275). -/
  irqOrder : List Col
  /-- P21 `DEFAULT_CHAR_LUT`, OPEN, entries 1..16; entry 0 is `0x00` (R58, R144). -/
  defaultChars : Vector Byte 16
  /-- P22 `REG_ADDR(role)`, OPEN, in the order of `Role` (R85, R88). -/
  regAddr : Vector RegAddr 12
  /-- P23 `LCD_SHARES_KEYPAD_PORT`, OPEN (R37, R314). -/
  lcdShares : Bool
  /-- `CLKEN_BIT`, `MUX_SEL`, `KPD_PORT_CODE`, the `IRQEN` bits and `LCD_PIN`, OPEN (R37, R42, R46, R48). -/
  layout : Layout
  deriving DecidableEq, Repr

/-- A parameter that breaks R10 ("`10 µs ≤ T_SHORT < 100 µs`", "`T_LONG > 1000 µs`") or R85
("`REG_ADDR(role)` must be a multiple of 4"). DESIGN CHOICE (log 41): where several break, `T_SHORT` is named before
`T_LONG` and that before `REG_ADDR`. -/
def Config.broken (c : Config) : Option Param :=
  match c.tShort with
  | .below _ => some .tShort
  | .above _ => some .tShort
  | .within _ =>
    match c.tLong with
    | .below _ => some .tLong
    | .within _ => if c.regAddr.toList.any (fun a => a.byte != 0) then some .regAddr else none

/-- No two lines share a pin and no two fields share a bit, as R36, R37, R42, R46, R48, R143 and R314 have it (log 7). -/
abbrev Config.Wired (c : Config) : Prop :=
  c.keypadPins.toList.Nodup ∧ c.layout.Wired ∧ c.layout.Placed c.lcdShares

/-! ### Free values: no body, so that no proof can see one -/

/-- The `draw()` of R160 and R162: the bit drawn at evaluation `stamp` for pin or line number `i` (log 4). -/
opaque Config.freeBit (stamp i : Nat) : Bool

/-- "the cursor is any value" (R228, R230): its column at evaluation `stamp` (log 5). -/
opaque Config.freeCol (stamp : Nat) : Fin 40

/-- "the cursor is any value" (R228, R230): its row at evaluation `stamp` (log 5). -/
opaque Config.freeRow (stamp : Nat) : Fin 2

/-- Whether an invalid `SET_DDRAM_ADDR` selects the display memory (R230 states it for valid addresses only; log 6). -/
opaque Config.freeSelect (stamp : Nat) : Bool

/-- "any value for CGRAM contents" (I24): the five bits that a data word `b` leaves in its cell at evaluation `stamp`,
of which R231's `b[4:0]` is one choice (log 39). -/
opaque Config.freeGlyph (stamp : Nat) (b : Byte) : BitVec 5

/-! ### The board `State.reset` stands for: every OPEN parameter an opaque constant (log 2) -/

/-- P11. -/
opaque Config.boardDebounce : Nat

/-- P12, in microseconds above 10. -/
opaque Config.boardShort : Fin 90

/-- P13, in microseconds above 1001. -/
opaque Config.boardLong : Nat

/-- P14. -/
opaque Config.boardPowerOn : Nat

/-- P15 `DEV_T_SHORT`. -/
opaque Config.boardDevShort : Nat

/-- P15 `DEV_T_LONG`. -/
opaque Config.boardDevLong : Nat

/-- P16. -/
opaque Config.boardEPulse : Nat

/-- P19. -/
opaque Config.boardLatchWhileMasked : Bool

/-- P20. -/
opaque Config.boardIrqOrder : List Col

/-- P21, entry `i`. -/
opaque Config.boardChar (i : Nat) : Byte

/-- P22, the word number of role `i`'s address. -/
opaque Config.boardAddr (i : Nat) : Nat

/-- P23. -/
opaque Config.boardShares : Bool

/-- The positions, as they come. -/
opaque Config.boardLayout : Layout

/-- The board `State.reset` stands for (log 2): no proof can see the value of an OPEN parameter of it. What is seen is
what the spec itself requires of every configuration: R10's ranges, R85's alignment, fields that do not overlap; and
the values R9 states, P17's binding and P18's default. -/
def Config.board : Config where
  tDebounce := Config.boardDebounce
  tShort := .within Config.boardShort
  tLong := .within Config.boardLong
  tPowerOn := Config.boardPowerOn
  devTShort := Config.boardDevShort
  devTLong := Config.boardDevLong
  ePulseMin := Config.boardEPulse
  keypadPins := #v[0, 1, 2, 3, 4, 5, 6, 7]
  rowlutIndex0 := .noMatch
  prLatchWhileMasked := Config.boardLatchWhileMasked
  irqOrder := Config.boardIrqOrder
  defaultChars := #v[Config.boardChar 1, Config.boardChar 2, Config.boardChar 3, Config.boardChar 4,
    Config.boardChar 5, Config.boardChar 6, Config.boardChar 7, Config.boardChar 8,
    Config.boardChar 9, Config.boardChar 10, Config.boardChar 11, Config.boardChar 12,
    Config.boardChar 13, Config.boardChar 14, Config.boardChar 15, Config.boardChar 16]
  regAddr := #v[⟨Config.boardAddr 0, 0⟩, ⟨Config.boardAddr 1, 0⟩, ⟨Config.boardAddr 2, 0⟩, ⟨Config.boardAddr 3, 0⟩,
    ⟨Config.boardAddr 4, 0⟩, ⟨Config.boardAddr 5, 0⟩, ⟨Config.boardAddr 6, 0⟩, ⟨Config.boardAddr 7, 0⟩,
    ⟨Config.boardAddr 8, 0⟩, ⟨Config.boardAddr 9, 0⟩, ⟨Config.boardAddr 10, 0⟩, ⟨Config.boardAddr 11, 0⟩]
  lcdShares := Config.boardShares
  layout := if Config.boardLayout.Wired ∧ Config.boardLayout.Placed Config.boardShares then Config.boardLayout
    else Layout.apart Config.boardShares

end Sys2Proof
end

