-- ==== Sys2Proof/Machine/Bits.lean ====
section
/-! DEFINITION. The bits and fields of the 32-bit registers (10_state R36–R48): where a field stands in its word, and
its reading and writing. A write of a field keeps every other bit (R47). -/

namespace Sys2Proof.Machine

/-! ### Bits -/

/-- A one-bit mask at `i` where `b` holds, else 0. -/
def maskBit (n : Nat) (b : Bool) (i : Nat) : BitVec n := if b then BitVec.ofNat n (2 ^ i) else 0

/-- Bit `i` of a register replaced. -/
def setBit (w : Word) (i : Nat) (b : Bool) : Word := (w &&& ~~~(maskBit 32 true i)) ||| maskBit 32 b i

/-- The bits of `m` replaced by those of `v`. -/
def setBits (w m v : Word) : Word := (w &&& ~~~m) ||| (v &&& m)

/-- A register's low half replaced, its high half kept. -/
def setLow16 (w : Word) (v : BitVec 16) : Word := w.extractLsb' 16 16 ++ v

/-! ### Two bits per pin: `MODE`, `PULL`, `LMODE` (R38, R39, R48) -/

/-- The 2-bit field of pin `p`, `w[2p+1:2p]`. -/
def pinField (w : Word) (p : Nat) : BitVec 2 := w.extractLsb' (2 * p) 2

/-- The field of pin `p` replaced. -/
def setPinField (w : Word) (p : Nat) (v : BitVec 2) : Word :=
  setBit (setBit w (2 * p) (v.getLsbD 0)) (2 * p + 1) (v.getLsbD 1)

/-- `MODE` encoding `0b00` (R38). -/
def modeInput : BitVec 2 := 0b00

/-- `MODE` encoding `0b01` (R38). -/
def modeOutput : BitVec 2 := 0b01

/-- `PULL` encoding `0b10` (R39). -/
def pullDown : BitVec 2 := 0b10

/-! ### The keypad's pins (P17) -/

/-- The line of column `c`. -/
def colLine (c : Col) : Line := ⟨c.val, by omega⟩

/-- The line of row `r`. -/
def rowLine (r : Row) : Line := ⟨4 + r.val, by omega⟩

/-- The pin of a keypad line: `COL_PIN(c)` or `ROW_PIN(r)`. -/
def pinOf (c : Config) (l : Line) : Pin := c.keypadPins[l]

/-- `MODE[15:0]` with these lines OUTPUT and the other keypad pins INPUT. -/
def outputs (c : Config) (ls : List Line) : BitVec 16 :=
  ls.foldl (fun m l => m ||| maskBit 16 true (2 * (pinOf c l).val)) 0

/-- Rows OUTPUT and columns INPUT, K2 and S6: `0x5500` under P17's own binding. -/
def idleMode (c : Config) : BitVec 16 := outputs c [4, 5, 6, 7]

/-- Rows INPUT and columns OUTPUT, S2: `0x0055` under P17's own binding. -/
def scanMode (c : Config) : BitVec 16 := outputs c [0, 1, 2, 3]

/-! ### `CLKEN` (R37) -/

/-- The bit of `LCD_PORT_CLK`, which is `KPD_PORT_CLK` where the LCD shares the keypad's port (P23). -/
def clkLcdBit (c : Config) : Fin 32 := if c.lcdShares then c.layout.clkKpdPort else c.layout.clkLcdPort

/-! ### `MUX` (R42) -/

/-- The bits of `MUX_SEL[c]`. -/
def muxMask (l : Layout) (c : Col) : Word := BitVec.ofNat 32 ((2 ^ l.muxWidth - 1) * 2 ^ l.muxAt c)

/-- The bits of the four fields. -/
def muxBits (l : Layout) : Word := muxMask l 0 ||| muxMask l 1 ||| muxMask l 2 ||| muxMask l 3

/-- `KPD_PORT_CODE` in the place of `MUX_SEL[c]`. -/
def muxCode (l : Layout) (c : Col) : Word := BitVec.ofNat 32 (l.kpdPortCode * 2 ^ l.muxAt c)

/-- `MUX_SEL[c] = KPD_PORT_CODE`. -/
def routed (l : Layout) (w : Word) (c : Col) : Bool := w &&& muxMask l c == muxCode l c

/-- `MUX_SEL[c] <- KPD_PORT_CODE`. -/
def route (l : Layout) (c : Col) (w : Word) : Word := setBits w (muxMask l c) (muxCode l c)

/-- Every select field 0, or all ones where 0 is `KPD_PORT_CODE`: unrouted (R58; log 9). -/
def unrouted (l : Layout) : Word := if l.kpdPortCode = 0 then muxBits l else 0

/-! ### `IRQEN` (R46) -/

/-- The enable bits of lines 0..3. -/
def irqBits (l : Layout) : Word :=
  maskBit 32 true (l.irqAt 0) ||| maskBit 32 true (l.irqAt 1)
    ||| maskBit 32 true (l.irqAt 2) ||| maskBit 32 true (l.irqAt 3)

/-- `IRQEN[c]`. -/
def irqOn (l : Layout) (w : Word) (c : Col) : Bool := w.getLsbD (l.irqAt c)

/-! ### `LMODE` and `LODR` (R48) -/

/-- The data lines, D0 first. -/
def dataLines : List (Fin 8) := [0, 1, 2, 3, 4, 5, 6, 7]

/-- Every LCD line's mode field at OUTPUT; a 32-bit word has no field for pins 16 to 31 (log 7). -/
def lcdLinesOut (l : Layout) (w : Word) : Word :=
  l.lcdPins.foldl (fun v p => setPinField v p.val modeOutput) w

/-- The data lines' output bits replaced by a byte. -/
def setData (l : Layout) (b : Byte) (w : Word) : Word :=
  dataLines.foldl (fun v i => setBit v (l.dataPin i).val (b.getLsbD i.val)) w

end Sys2Proof.Machine
end

