-- ==== Sys2Proof/Machine/State.lean ====
section
/-! DEFINITION. The state of the machine (10_state), its faults and refusals (60_exceptions R260–R263), and the state
right after reset (R58, R300). -/

namespace Sys2Proof.Machine

/-! ### Register roles (R36) -/

/-- The register file: one 32-bit register for every role of R36 that holds a value (`IDR` holds none, its read is the
pins' levels, R41). Where the LCD shares the keypad's port (P23), `LMODE` is `MODE` and `LODR` is `ODR` (R314), and
`lmode` and `lodr` are not used. -/
structure Regs where
  clken : Word
  mode : Word
  pull : Word
  odr : Word
  mux : Word
  imr : Word
  rtsr : Word
  pr : Word
  irqen : Word
  lmode : Word
  lodr : Word
  deriving DecidableEq, Repr

/-! ### Positions (R49) -/

/-- `fgpos = Idle | InOp(op, k)`; `k` numbers the micro-steps of the operation from 1. -/
inductive FgPos where
  | idle
  | inOp (i : Instr) (k : Nat)
  deriving DecidableEq, Repr

/-- `InIsr(c, k)`; `k` numbers the micro-steps of `Scan(c)` from 1 (R331: S1 is 1 and 2, S2 3 and 4, S3 5, S4 6,
S5 7 and 8, S6 9 and 10, S7 11, S8 12 and 13), and 14 is the return S9. -/
structure IsrPos where
  col : Col
  k : Nat
  deriving DecidableEq, Repr

/-- The position a verdict is raised at (R263). The context is ISR where `isrpos` is some position, else FG. -/
structure At where
  fgpos : FgPos
  isrpos : Option IsrPos
  deriving DecidableEq, Repr

/-! ### Verdicts (R263) -/

/-- A reason in the set `faults` (R261, R263). -/
inductive FaultRecord where
  /-- `F_CLOCK_GATED` (R37). -/
  | clockGated (r : Role) (pos : At)
  /-- `F_LCD_BUSY` (R222). -/
  | lcdBusy (w : BusWord) (pos : At)
  /-- `F_LCD_MODE` (R228). -/
  | lcdMode (w : BusWord) (pos : At)
  deriving DecidableEq, Repr

/-- The operation has no meaning in the spec (R260); safe, since no claim can be proved of a run past one. -/
inductive Refusal where
  /-- An arm of `exec` whose meaning is not written yet, and nothing else. Safe. -/
  | notModelled (mnemonic : String)
  /-- `R_NOT_INITIALIZED` (R262): a command before its `*_INIT`, by `kpdReady` and `lcdReady`. Safe. -/
  | notInitialized (op : Byte) (pos : At)
  /-- `R_RESERVED_OPCODE` (R109): by the two reserved opcode ranges. Safe. -/
  | reservedOpcode (op : Byte) (pos : At)
  /-- `R_PRINT_TOO_LONG` (R200): by `LCD_PRINT` of more than 80 characters. Safe. -/
  | printTooLong (length : Nat) (pos : At)
  /-- `R_CURSOR_RANGE` (R196): by `LCD_CURSOR_SET` outside its domain. Safe. -/
  | cursorRange (x y : Byte) (pos : At)
  /-- `R_LCD_READ` (R110, R232, R233): by the two read words. Safe. -/
  | lcdRead (w : BusWord) (pos : At)
  /-- `R_LCD_RESERVED` (R110, R187, R234): by `LCD_WRITE_INSTR 0` and by the bus word 0x000. Safe. -/
  | lcdReserved (v : Word) (pos : At)
  /-- `R_LCD_FROM_ISR` (R202): an LCD command asked for while a handler runs, by `hostCommand`. Safe. -/
  | lcdFromIsr (op : Byte) (pos : At)
  /-- `R_WRITE_READ_ONLY` (R82): a write of `IDR`, by `regWrite`; the block never does it. Safe. -/
  | writeReadOnly (r : Role) (pos : At)
  /-- `R_LUT_ALIASED` (R34): the caller's table changed while installed, by the environment step. Safe. -/
  | lutAliased (pos : At)
  /-- `R_BAD_CONFIG` (R10, R85): a step of a machine whose configuration breaks a constraint, by `schedule`. Safe. -/
  | badConfig (p : Param) (pos : At)
  deriving DecidableEq, Repr

/-- The code of a refusal (R263). -/
def Refusal.code : Refusal → Byte
  | .notModelled _ => 0x00
  | .notInitialized _ _ => 0x01
  | .reservedOpcode _ _ => 0x02
  | .printTooLong _ _ => 0x03
  | .cursorRange _ _ _ => 0x04
  | .lcdRead _ _ => 0x05
  | .lcdReserved _ _ => 0x06
  | .lcdFromIsr _ _ => 0x07
  | .writeReadOnly _ _ => 0x08
  | .lutAliased _ => 0x09
  | .badConfig _ _ => 0x0A

/-- The code of a fault (R263). -/
def FaultRecord.code : FaultRecord → Byte
  | .clockGated _ _ => 0x81
  | .lcdBusy _ _ => 0x82
  | .lcdMode _ _ => 0x83

/-! ### The display device (R55, R56, R240) -/

/-- The device's scoreboard `dev_busy` (R55). -/
inductive Busy where
  | free
  | short
  | long
  deriving DecidableEq, Repr

/-- Which memory a data write goes to (R240). -/
inductive Space where
  | ddram
  | cgram
  deriving DecidableEq, Repr

/-- The cursor position `(column, row)`, column in 0..39 and row in 0..1 (R240). -/
structure Cursor where
  col : Fin 40
  row : Fin 2
  deriving DecidableEq, Repr

/-- The display's memories as one list of cells (log 8): a DDRAM cell at its address `0x40·row + col` (R241), a
CGRAM cell at `0x100 + cgaddr`. -/
abbrev Memory := List Host.Cell

/-- The device-side state of R240, but for its memories. `nibble` says that a 4-bit function set was executed (R228). -/
structure Dev where
  cursor : Cursor
  space : Space
  cgaddr : BitVec 6
  d : Bool
  c : Bool
  b : Bool
  id : Bool
  sh : Bool
  dl : Bool
  n : Bool
  f : Bool
  shift : Fin 40
  nibble : Bool
  deriving DecidableEq, Repr

/-! ### The outside world -/

/-- What the block lets the outside observe: a latched bus word (R220) and a delay (R283), in µs. -/
inductive Event where
  | latch (w : BusWord)
  | delay (t : Nat)
  deriving DecidableEq, Repr

/-- A step of the environment (R163, R300, R304, R34). -/
inductive EnvStep where
  /-- Close (`true`) or open key `K[r][c]`. -/
  | key (r : Row) (c : Col) (closed : Bool)
  /-- `bouncing <- b`. -/
  | bounce (b : Bool)
  /-- `LcdPowered`. -/
  | lcdPowered
  /-- The host asserts reset. -/
  | reset
  /-- The caller changes or frees the storage of an installed character table. -/
  | tableChanged
  deriving DecidableEq, Repr

/-- One turn of the scheduler (log 3): which agent moves next, and for how many micro-steps. -/
inductive Turn where
  /-- The default scheduler takes one turn: a requesting handler first, else the foreground. -/
  | go
  /-- The executing context (a handler where one runs, else the foreground) takes at most `n` micro-steps. -/
  | run (n : Nat)
  /-- The core enters the handler of line `c`, if it may, and the handler takes at most `n` micro-steps. -/
  | enter (c : Col) (n : Nat)
  /-- The environment takes a step. -/
  | env (e : EnvStep)
  /-- The host puts the bytes of further commands into the command port. -/
  | command (bytes : List Byte)
  /-- A bus word is asked of the LCD bus directly. -/
  | busWord (w : BusWord)
  deriving DecidableEq, Repr

/-- The edge detector's last observed levels `lvl[0..3]` (R53). -/
structure Levels where
  c0 : Bool
  c1 : Bool
  c2 : Bool
  c3 : Bool
  deriving DecidableEq, Repr

/-- The whole machine. -/
structure State where
  /-- The configuration, fixed for the machine (R9). -/
  cfg : Config
  /-- The last-keypress slot (R31). -/
  slot : Byte
  /-- The active character table (R33). -/
  lut : Vector Byte 17
  /-- A caller's table is installed (R34). -/
  lutInstalled : Bool
  /-- The register roles (R36). -/
  regs : Regs
  /-- I2 has made outputs of the LCD lines whose pins, 16 to 31, the 32-bit mode register has no field for (R48;
  log 7). -/
  highOut : Bool
  /-- Foreground position (R49). -/
  fgpos : FgPos
  /-- Foreground local `t` (R280). -/
  fgT : Word
  /-- Foreground local `v` (R280). -/
  fgV : Byte
  /-- Handler position (R49). -/
  isrpos : Option IsrPos
  /-- Handler local `t` (R280). -/
  isrT : Word
  /-- Handler local `s`, bit r the level of row r (R280). -/
  isrS : BitVec 4
  /-- Handler local `r` (R280). -/
  isrR : RowIdx
  /-- `kpd_init` (R51). -/
  kpdInit : Bool
  /-- `lcd_init` (R51). -/
  lcdInit : Bool
  /-- The `refused` mark with its reason (R51, R260). -/
  refused : Option Refusal
  /-- The `faults` set (R51, R261). -/
  faults : List FaultRecord
  /-- `lvl[0..3]` (R53). -/
  lvl : Levels
  /-- `dev_busy` (R55). -/
  devBusy : Busy
  /-- The device-side state (R240). -/
  dev : Dev
  /-- The device's memories (R240). -/
  vram : Memory
  /-- Some word has been latched since reset (R304). -/
  anyLatch : Bool
  /-- The key matrix, `K[r][c]` at bit `4r + c` (R57). -/
  keys : BitVec 16
  /-- `bouncing` (R57). -/
  bouncing : Bool
  /-- Pins found with a reserved mode encoding (R38, I4). -/
  spoiled : BitVec 8
  /-- `LcdPowered` has occurred since reset (R57, R304). -/
  lcdPowered : Bool
  /-- The result value of the last command, where it returned one (R100). -/
  result : Option Byte
  /-- The latches and delays so far, oldest first (R220, R283). -/
  events : List Event
  /-- The command port: bytes of commands not yet accepted (R100, R112). -/
  port : List Byte
  /-- The turns the outside world has laid down, next first (log 3). -/
  sched : List Turn
  /-- The micro-steps the turn at hand may take, where it is bounded (log 3). -/
  quantum : Option Nat
  /-- How many evaluations have drawn so far: the stamp of the free values (log 4). -/
  draws : Nat
  deriving DecidableEq, Repr

/-- The position a verdict raised now is recorded with (R263). -/
def State.pos (s : State) : At := { fgpos := s.fgpos, isrpos := s.isrpos }

/-- The chip would misbehave in a way the model does not follow (R261). Each fault has its record and the state it
leaves, in which every micro-step before it stands and `faults` has the reason. Safe, since the machine takes no further
step and no claim follows about what the chip does then. -/
inductive Fault where
  /-- `F_CLOCK_GATED` (R37): any register access, by `regRead` or `regWrite`. Safe. -/
  | clockGated (r : Role) (pos : At) (left : State)
  /-- `F_LCD_BUSY` (R222): a latch while the device is busy, by `latch`. Safe. -/
  | lcdBusy (w : BusWord) (pos : At) (left : State)
  /-- `F_LCD_MODE` (R228): a latch after a 4-bit function set, by `latch`. Safe. -/
  | lcdMode (w : BusWord) (pos : At) (left : State)
  deriving DecidableEq, Repr

/-- The fault with this record that leaves `t`. -/
def FaultRecord.leaving (f : FaultRecord) (t : State) : Fault :=
  match f with
  | .clockGated r p => .clockGated r p t
  | .lcdBusy w p => .lcdBusy w p t
  | .lcdMode w p => .lcdMode w p t

/-- A fault's record. -/
def Fault.record : Fault → FaultRecord
  | .clockGated r p _ => .clockGated r p
  | .lcdBusy w p _ => .lcdBusy w p
  | .lcdMode w p _ => .lcdMode w p

/-- The state a fault leaves. -/
def Fault.left : Fault → State
  | .clockGated _ _ t => t
  | .lcdBusy _ _ t => t
  | .lcdMode _ _ t => t

/-- `fault <Reason>`: reasons added to the set `faults` (R261). -/
def State.marked (s : State) (fs : List FaultRecord) : State := { s with faults := s.faults ++ fs }

/-- Every register role after reset (R58): owned fields 0, lines masked and unrouted; bits the block does not own
are any value, and hold 0 here (log 9). -/
def Regs.reset (c : Config) : Regs where
  clken := 0
  mode := 0
  pull := 0
  odr := 0
  mux := unrouted c.layout
  imr := 0
  rtsr := 0
  pr := 0
  irqen := 0
  lmode := 0
  lodr := 0

/-- The device after reset: any value (R58, R240); the values named in log 10. -/
def Dev.reset : Dev where
  cursor := { col := 0, row := 0 }
  space := .ddram
  cgaddr := 0
  d := false
  c := false
  b := false
  id := false
  sh := false
  dl := false
  n := false
  f := false
  shift := 0
  nibble := false

/-- `DEFAULT_CHAR_LUT` (P21): entry 0 is `0x00`, entries 1..16 the configuration's (R58, R144). -/
def defaultLut (c : Config) : Vector Byte 17 :=
  #v[0, c.defaultChars[0], c.defaultChars[1], c.defaultChars[2], c.defaultChars[3],
    c.defaultChars[4], c.defaultChars[5], c.defaultChars[6], c.defaultChars[7],
    c.defaultChars[8], c.defaultChars[9], c.defaultChars[10], c.defaultChars[11],
    c.defaultChars[12], c.defaultChars[13], c.defaultChars[14], c.defaultChars[15]]

/-- The state after reset of a block with configuration `c`, and nothing asked of it (R58, R300). DESIGN CHOICE
(log 37): the environment starts with all keys open and no contact bouncing, for which R58 has no row. -/
def State.resetWith (c : Config) : State where
  cfg := c
  slot := 0
  lut := defaultLut c
  lutInstalled := false
  regs := Regs.reset c
  highOut := false
  fgpos := .idle
  fgT := 0
  fgV := 0
  isrpos := none
  isrT := 0
  isrS := 0
  isrR := .noMatch
  kpdInit := false
  lcdInit := false
  refused := none
  faults := []
  lvl := { c0 := false, c1 := false, c2 := false, c3 := false }
  devBusy := .long
  dev := Dev.reset
  vram := []
  anyLatch := false
  keys := 0
  bouncing := false
  spoiled := 0
  lcdPowered := false
  result := none
  events := []
  port := []
  sched := []
  quantum := none
  draws := 0

/-- The machine right after reset (R58, R300), on the board of log 2. -/
def State.reset : State := State.resetWith Config.board

end Sys2Proof.Machine
end

