-- ==== Sys2Proof/Machine/Operands.lean ====
section
/-! DEFINITION. Operand forms: register roles (R36) and the values `KPD_INIT`, `LCD_INIT` and the scan write into them,
the constant tables, and the operands of the LCD operations. -/

namespace Sys2Proof.Machine

/-! ### Register roles (R36) -/

/-- The register a role names: where the LCD shares the keypad's port, `LMODE` is `MODE` and `LODR` is `ODR` (R314). -/
def portRole (shares : Bool) (r : Role) : Role :=
  match r with
  | .lmode => if shares then .mode else .lmode
  | .lodr => if shares then .odr else .lodr
  | .clken | .mode | .pull | .odr | .idr | .mux | .imr | .rtsr | .pr | .irqen => r

/-- A register's word; `IDR` holds none. -/
def Regs.get (g : Regs) (r : Role) : Word :=
  match r with
  | .clken => g.clken
  | .mode => g.mode
  | .pull => g.pull
  | .odr => g.odr
  | .idr => 0
  | .mux => g.mux
  | .imr => g.imr
  | .rtsr => g.rtsr
  | .pr => g.pr
  | .irqen => g.irqen
  | .lmode => g.lmode
  | .lodr => g.lodr

/-- A register's word replaced; `IDR` holds none. -/
def Regs.set (g : Regs) (r : Role) (w : Word) : Regs :=
  match r with
  | .clken => { g with clken := w }
  | .mode => { g with mode := w }
  | .pull => { g with pull := w }
  | .odr => { g with odr := w }
  | .idr => g
  | .mux => { g with mux := w }
  | .imr => { g with imr := w }
  | .rtsr => { g with rtsr := w }
  | .pr => { g with pr := w }
  | .irqen => { g with irqen := w }
  | .lmode => { g with lmode := w }
  | .lodr => { g with lodr := w }

/-! ### The register updates of the pseudocode -/

/-- The functions `f` of the block's `RegRMW(role, f)` (R130, R150, R189). -/
inductive Upd where
  /-- K1: `t | bit(KPD_PORT_CLK) | bit(MUX_CLK)`. -/
  | clkKeypad
  /-- I1: `t | bit(LCD_PORT_CLK)`. -/
  | clkLcd
  /-- K2, S6: rows to OUTPUT and columns to INPUT. -/
  | modeIdle
  /-- S2: rows to INPUT and columns to OUTPUT. -/
  | modeScan
  /-- K3: every keypad pin to PULL-DOWN, `PULL[15:0] = 0xAAAA`. -/
  | pullAll
  /-- K4: `t | 0xFF`. -/
  | odrHigh
  /-- K5: `MUX_SEL[c] <- KPD_PORT_CODE` for the four lines. -/
  | muxRoute
  /-- K6, K7, S8: `t | 0xF`. -/
  | linesOn
  /-- S1: `t & ~0xF`. -/
  | linesOff
  /-- K8: the enable bits of lines 0..3. -/
  | irqOn
  /-- I2: every LCD line to OUTPUT. -/
  | lcdOutput
  deriving DecidableEq, Repr

/-- `f(t)`: it changes its register's fields and keeps every other bit (R47). -/
def Upd.apply (u : Upd) (c : Config) (t : Word) : Word :=
  match u with
  | .clkKeypad => t ||| maskBit 32 true c.layout.clkKpdPort.val ||| maskBit 32 true c.layout.clkMux.val
  | .clkLcd => t ||| maskBit 32 true (clkLcdBit c).val
  | .modeIdle => setLow16 t (idleMode c)
  | .modeScan => setLow16 t (scanMode c)
  | .pullAll => setLow16 t 0xAAAA
  | .odrHigh => t ||| 0xFF
  | .muxRoute => route c.layout 3 (route c.layout 2 (route c.layout 1 (route c.layout 0 t)))
  | .linesOn => t ||| 0xF
  | .linesOff => t &&& ~~~(0xF : Word)
  | .irqOn => t ||| irqBits c.layout
  | .lcdOutput => lcdLinesOut c.layout t

/-! ### Constant tables -/

/-- `rowlut`, the constant Row Lookup Table (R35). -/
def rowlut (c : Config) (s : BitVec 4) : RowIdx :=
  match s.toNat with
  | 0b0000 => match c.rowlutIndex0 with
    | .noMatch => .noMatch
    | .row0 => .row 0
  | 0b0001 => .row 0
  | 0b0010 => .row 1
  | 0b0100 => .row 2
  | 0b1000 => .row 3
  | _ => .noMatch

/-- The key code `4r + c + 1` (R140). -/
def keyCode (r : Row) (c : Col) : Byte := BitVec.ofNat 8 (4 * r.val + c.val + 1)

/-- `ToChar(key)` through a table: the entry for 1..16, else `0x00` (R146). `key` is an `Int32`. -/
def toChar (lut : Vector Byte 17) (key : Word) : Byte :=
  if 1 ≤ key.toInt && key.toInt ≤ 16 then lut.toList.getD key.toNat 0 else 0

/-- A `u8` key code as an `Int32`. -/
def keyOfByte (v : Byte) : Word := v.setWidth 32

/-! ### LCD operands (R105–R108) -/

/-- `LCD_COLS` (P7). -/
def lcdCols : Nat := 40

/-- `LCD_ROWS` (P8). -/
def lcdRows : Nat := 2

/-- `PRINT_MAX` (P9). -/
def printMax : Nat := 80

/-- `I_CLEAR` (R107). -/
def iClear : Byte := 0x01

/-- `I_HOME` (R107). -/
def iHome : Byte := 0x02

/-- `I_ENTRY_INC` (R107). -/
def iEntryInc : Byte := 0x06

/-- `I_DISP_CUR_BLINK` (R107). -/
def iDispCurBlink : Byte := 0x0F

/-- `I_DISP_NOCUR_BLINK` (R107). -/
def iDispNocurBlink : Byte := 0x0D

/-- `I_CURSOR_RIGHT` (R107). -/
def iCursorRight : Byte := 0x14

/-- `FUNCTION_SET_BYTE` (P24, R107). -/
def functionSetByte : Byte := 0x38

/-- `SettleTime(rs, b)` (R184). -/
def settleTime (c : Config) (rs : Bool) (b : Byte) : Nat :=
  if !rs && (b == 0x01 || (b &&& 0xFE) == 0x02) then c.tLong.micros else c.tShort.micros

/-- The busy class of a latched word (R221). -/
def busyClass (w : BusWord) : Busy :=
  if !w.getLsbD 9 && (w.extractLsb' 0 8 == (0x01 : Byte) || (w.extractLsb' 0 8 &&& (0xFE : Byte)) == 0x02) then .long
  else .short

/-- The relative shifts `LCD_CURSOR_SET(x, y)` issues: `y * row_length + x` (R198). -/
def cursorShifts (x y : Byte) : Nat := lcdCols * y.toNat + x.toNat

end Sys2Proof.Machine
end

