-- ==== Sys2Proof/Machine/Flags.lean ====
section
/-! DEFINITION. The status the hardware computes: pin levels and nets (R160), the edge detector and its pending bits
(R162), the interrupt requests (R54, R271) and the LCD lines' levels (R48, R244). -/

namespace Sys2Proof.Machine

/-! ### The key matrix and its nets (R57, R160) -/

/-- `K[r][c]`. -/
def keyClosed (keys : BitVec 16) (r : Row) (c : Col) : Bool := keys.getLsbD (4 * r.val + c.val)

/-- The key matrix with one key opened or closed (R163). -/
def setKey (keys : BitVec 16) (r : Row) (c : Col) (closed : Bool) : BitVec 16 :=
  (keys &&& ~~~(maskBit 16 true (4 * r.val + c.val))) ||| maskBit 16 closed (4 * r.val + c.val)

/-- A closed key connects the two lines, one a column and one a row. -/
def adjacent (keys : BitVec 16) (p q : Line) : Bool :=
  (p.val < 4 && 4 ≤ q.val && keys.getLsbD (4 * (q.val - 4) + p.val))
    || (q.val < 4 && 4 ≤ p.val && keys.getLsbD (4 * (p.val - 4) + q.val))

/-- The lines, in order. -/
def allLines : List Line := [0, 1, 2, 3, 4, 5, 6, 7]

/-- A set of lines and every line a closed key connects to one of them. -/
def growNet (keys : BitVec 16) (m : List Line) : List Line :=
  allLines.filter (fun q => m.contains q || m.any (fun p => adjacent keys p q))

/-- Growth repeated, at most `n` times, until nothing is added. -/
def closeNet (keys : BitVec 16) : Nat → List Line → List Line
  | 0, m => m
  | n + 1, m => if growNet keys m = m then m else closeNet keys n (growNet keys m)

/-- `net`: the lines whose pins closed keys connect to line `l`'s, taken transitively. Eight growths reach every line
of eight. -/
def net (keys : BitVec 16) (l : Line) : List Line := closeNet keys 8 [l]

/-! ### Pin levels (R160) -/

/-- Line `q`'s pin is an output driving level `b` (R40). -/
def drives (s : State) (b : Bool) (q : Line) : Bool :=
  pinField s.regs.mode (pinOf s.cfg q).val == modeOutput && s.regs.odr.getLsbD (pinOf s.cfg q).val == b

/-- The level of an input pin whose contact is settled: driven through its net, pulled down, or drawn. -/
def inputLevel (s : State) (l : Line) : Bool :=
  if (net s.keys l).any (drives s true) then
    if (net s.keys l).any (drives s false) then Config.freeBit s.draws (pinOf s.cfg l).val else true
  else if (net s.keys l).any (drives s false) then false
  else if pinField s.regs.pull (pinOf s.cfg l).val = pullDown then false
  else Config.freeBit s.draws (pinOf s.cfg l).val

/-- The level of line `l`'s pin (R160); a pin found with a reserved mode draws for the rest of the run (R38, I4). -/
def level (s : State) (l : Line) : Bool :=
  let p := (pinOf s.cfg l).val
  if s.spoiled.getLsbD p then Config.freeBit s.draws p
  else if pinField s.regs.mode p = modeOutput then s.regs.odr.getLsbD p
  else if pinField s.regs.mode p ≠ modeInput then Config.freeBit s.draws p
  else if s.bouncing then Config.freeBit s.draws p
  else inputLevel s l

/-- Line `l`'s level at its pin's bit. -/
def levelBit (s : State) (l : Line) : BitVec 8 := maskBit 8 (level s l) (pinOf s.cfg l).val

/-- The eight keypad pins' levels, pin p at bit p: `IDR[7:0]` (R41). -/
def pinLevels (s : State) : BitVec 8 :=
  levelBit s 0 ||| levelBit s 1 ||| levelBit s 2 ||| levelBit s 3
    ||| levelBit s 4 ||| levelBit s 5 ||| levelBit s 6 ||| levelBit s 7

/-- The pins with a reserved mode encoding, `0b10` or `0b11` (R38). -/
def reservedPins (mode : Word) : BitVec 8 :=
  maskBit 8 (mode.getLsbD 1) 0 ||| maskBit 8 (mode.getLsbD 3) 1 ||| maskBit 8 (mode.getLsbD 5) 2
    ||| maskBit 8 (mode.getLsbD 7) 3 ||| maskBit 8 (mode.getLsbD 9) 4 ||| maskBit 8 (mode.getLsbD 11) 5
    ||| maskBit 8 (mode.getLsbD 13) 6 ||| maskBit 8 (mode.getLsbD 15) 7

/-! ### The edge detector (R162) -/

/-- `lvl[c]` (R53). -/
def Levels.get (l : Levels) (c : Col) : Bool :=
  match c with
  | 0 => l.c0
  | 1 => l.c1
  | 2 => l.c2
  | 3 => l.c3

/-- Edge line `c`'s level now: pin `COL_PIN(c)`'s where the mux routes it, else a draw (R42, R162). -/
def lineLevel (s : State) (c : Col) : Bool :=
  if routed s.cfg.layout s.regs.mux c then level s (colLine c) else Config.freeBit s.draws (8 + c.val)

/-- Line `c` latches its pending bit at this evaluation: a rising edge, selected, and unmasked or P19 (R44, R162).
DESIGN CHOICE (log 42): an unrouted line's drawn level can rise and latch, as R162 has it, where R271 says that a pending
bit needs `MUX_SEL[c]` routed to the keypad port. -/
def latches (s : State) (c : Col) : Bool :=
  s.regs.rtsr.getLsbD c.val && (s.regs.imr.getLsbD c.val || s.cfg.prLatchWhileMasked)
    && !s.lvl.get c && lineLevel s c

/-- The pending bits that this evaluation sets. -/
def edges (s : State) : Word :=
  maskBit 32 (latches s 0) 0 ||| maskBit 32 (latches s 1) 1 ||| maskBit 32 (latches s 2) 2
    ||| maskBit 32 (latches s 3) 3

/-- Pins whose mode is reserved are remembered (R38). -/
def State.spoil (s : State) : State := { s with spoiled := s.spoiled ||| reservedPins s.regs.mode }

/-- The edge detector's step on the levels of `s`: pending bits and last levels (R162), and one more evaluation drawn. -/
def State.detect (s : State) : State :=
  { s with
    regs := { s.regs with pr := s.regs.pr ||| edges s }
    lvl := { c0 := lineLevel s 0, c1 := lineLevel s 1, c2 := lineLevel s 2, c3 := lineLevel s 3 }
    draws := s.draws + 1 }

/-- The re-evaluation of pin levels and edge detector "after every micro-step and every ENV step" (R160, R162). -/
def State.settle (s : State) : State := s.spoil.detect

/-! ### Interrupt requests (R54, R271) -/

/-- `req[c] = PR[c] ∧ IMR[c] ∧ IRQEN[c]`. -/
def req (s : State) (c : Col) : Bool :=
  s.regs.pr.getLsbD c.val && s.regs.imr.getLsbD c.val && irqOn s.cfg.layout s.regs.irqen c

/-- Some line requests service. -/
def requesting (s : State) : Bool := req s 0 || req s 1 || req s 2 || req s 3

/-- The line the default scheduler enters: the first requesting one in the configuration's order (P20, R275), the
lowest where that order names none of them. -/
def pickLine (s : State) : Option Col :=
  if requesting s then (s.cfg.irqOrder ++ [0, 1, 2, 3]).find? (req s) else none

/-- The KPD phase, a function of the state (R50). -/
inductive Phase where
  | uninit
  | idleArmed
  | scanning (c : Col)
  deriving DecidableEq, Repr

/-- R50; `k ≥ 3` counts micro-steps, so S1 has masked the lines (log 12). -/
def phase (s : State) : Phase :=
  if s.kpdInit then
    match s.isrpos with
    | some p => if 3 ≤ p.k then .scanning p.col else .idleArmed
    | none => .idleArmed
  else .uninit

/-! ### LCD line levels (R48, R244) -/

/-- The mode register of the LCD's port (R314: the keypad's `MODE` where they share it). -/
def lcdMode (s : State) : Word := s.regs.get (portRole s.cfg.lcdShares .lmode)

/-- The output-data register of the LCD's port (R314: the keypad's `ODR` where they share it). -/
def lcdOut (s : State) : Word := s.regs.get (portRole s.cfg.lcdShares .lodr)

/-- The block drives the LCD line on pin `p`: its mode field is OUTPUT, or it has none and I2 has made it an output (R48;
log 7). -/
def lcdDrives (s : State) (p : PortPin) : Bool :=
  if p.val < 16 then pinField (lcdMode s) p.val == modeOutput else s.highOut

/-- The level of the LCD line on pin `p`: the output bit where the line is an output, else any value, drawn under
number `i`. -/
def lcdLevel (s : State) (p : PortPin) (i : Nat) : Bool :=
  if lcdDrives s p then (lcdOut s).getLsbD p.val else Config.freeBit s.draws i

/-- Data line `i`'s level at bit `i`. -/
def dataBit (s : State) (i : Fin 8) : Byte := maskBit 8 (lcdLevel s (s.cfg.layout.dataPin i) (32 + i.val)) i.val

/-- The byte on `D[7:0]`. -/
def dataLevels (s : State) : Byte :=
  dataBit s 0 ||| dataBit s 1 ||| dataBit s 2 ||| dataBit s 3
    ||| dataBit s 4 ||| dataBit s 5 ||| dataBit s 6 ||| dataBit s 7

/-- The bus word `RS, RW, D` the lines show (R104, R220). -/
def busLevels (s : State) : BusWord :=
  busWord (lcdLevel s s.cfg.layout.lcdRs 40) (lcdLevel s s.cfg.layout.lcdRw 41) (dataLevels s)

end Sys2Proof.Machine
end

