-- ==== Sys2Proof/Machine/Ops.lean ====
section
/-! DEFINITION. The named operations of the machine: the device's memories, register access (R81–R83), the LCD lines
and the device's latch (R181, R220–R222), delays (R183, R283), handler entry and return (R272, R277), the environment
(R163) and what a stop leaves (R260, R261). -/

namespace Sys2Proof.Machine

/-! ### The display's memories (R240, R241; log 8) -/

/-- What a cell that the list does not name reads as: a space in DDRAM (`CLEAR_DISPLAY`'s own fill), 0 in CGRAM. -/
def blank (a : Nat) : Byte := if a < 0x100 then 0x20 else 0

/-- The list is in canonical form: addresses strictly rising, no cell equal to what an unlisted one reads as. -/
abbrev Memory.wf (m : Memory) : Prop :=
  m.Pairwise (fun x y => x.1 < y.1) ∧ ∀ c ∈ m, c.2 ≠ blank c.1

/-- The byte at address `a`. -/
def memRead (m : Memory) (a : Nat) : Byte :=
  match m with
  | [] => blank a
  | c :: rest => if c.1 = a then c.2 else memRead rest a

/-- A cell put in its place in a rising list, over any cell with its address. -/
def memInsert (a : Nat) (b : Byte) : Memory → Memory
  | [] => [(a, b)]
  | c :: rest =>
    if a < c.1 then (a, b) :: c :: rest
    else if a = c.1 then (a, b) :: rest
    else c :: memInsert a b rest

/-- A list without the cell at `a`. -/
def memErase (m : Memory) (a : Nat) : Memory := m.filter (fun c => c.1 != a)

/-- One byte written; writing what an unlisted cell reads as removes the cell. -/
def memWrite (m : Memory) (a : Nat) (b : Byte) : Memory :=
  if b = blank a then memErase m a else memInsert a b m

/-- Every DDRAM cell back to `0x20`, CGRAM kept (R223). -/
def memClearDdram (m : Memory) : Memory := m.filter (fun c => 0x100 ≤ c.1)

/-- `Addr(col, row) = 0x40·row + col` (R241). -/
def cursorAddr (p : Cursor) : Nat := 0x40 * p.row.val + p.col.val

/-- The list address of a CGRAM cell. -/
def cgramAddr (a : BitVec 6) : Nat := 0x100 + a.toNat

/-! ### Register access -/

/-- The role's clock is running (R37); `IMR`, `RTSR`, `PR`, `IRQEN` and `CLKEN` are not gated. -/
def clocked (s : State) (r : Role) : Bool :=
  match r with
  | .mode | .pull | .odr | .idr => s.regs.clken.getLsbD s.cfg.layout.clkKpdPort.val
  | .mux => s.regs.clken.getLsbD s.cfg.layout.clkMux.val
  | .lmode | .lodr => s.regs.clken.getLsbD (clkLcdBit s.cfg).val
  | .clken | .imr | .rtsr | .pr | .irqen => true

/-- The 32-bit value of `IDR`: pins 0..7 at their levels, pins 8..15 any value (R41, R81). -/
def idrWord (s : State) : Word :=
  let free (i : Nat) : BitVec 8 := maskBit 8 (Config.freeBit s.draws (16 + i)) i
  (0 : BitVec 16) ++ (free 0 ||| free 1 ||| free 2 ||| free 3 ||| free 4 ||| free 5 ||| free 6 ||| free 7)
    ++ pinLevels s

/-- The value a role reads as now (R81). -/
def roleValue (s : State) (r : Role) : Word :=
  if r = .idr then idrWord s else s.regs.get (portRole s.cfg.lcdShares r)

/-- `RegRead(role)` (R81). -/
def regRead (r : Role) (s : State) : Except Fault Word :=
  if clocked s r then .ok (roleValue s r)
  else .error (.clockGated r s.pos (s.marked [.clockGated r s.pos]))

/-- The registers with `v` written to a role: clear-on-write-1 for `PR` (R45), else the value itself. -/
def storeRole (shares : Bool) (r : Role) (v : Word) (g : Regs) : Regs :=
  if r = .pr then g.set .pr (g.pr &&& ~~~v) else g.set (portRole shares r) v

/-- `RegWrite(role, v)` (R82), before the re-evaluation that ends its micro-step. -/
def regWrite (r : Role) (v : Word) (s : State) : Host.Outcome State Fault Refusal :=
  if clocked s r then
    if r = .idr then .refused (.writeReadOnly r s.pos)
    else .next { s with regs := storeRole s.cfg.lcdShares r v s.regs }
  else .fault (.clockGated r s.pos (s.marked [.clockGated r s.pos]))

/-- Beside its fields in the register, I2 makes outputs of the LCD lines that have none there (R48; log 7). -/
def State.directed (s : State) (u : Upd) : State := { s with highOut := s.highOut || u == .lcdOutput }

/-- `RegWrite(role, f(t))`, the second micro-step of `RegRMW(role, f)` (R83). -/
def regUpdate (r : Role) (u : Upd) (t : Word) (s : State) : Host.Outcome State Fault Refusal :=
  match regWrite r (u.apply s.cfg t) s with
  | .next v => .next (v.directed u)
  | .fault f => .fault f
  | .refused x => .refused x

/-! ### The LCD device's latch (R220–R222) -/

/-- The cursor in one-line mode is any value (R228): drawn anew after every word executed while `N = 0` (log 5). -/
def State.strayCursor (s : State) : State :=
  if s.dev.n then s
  else { s with
    dev := { s.dev with cursor := { col := Config.freeCol s.draws, row := Config.freeRow s.draws } }
    draws := s.draws + 1 }

/-- A word is latched: onto the bus trace (R220), and the device is busy with it (R221). -/
def State.latched (s : State) (w : BusWord) : State :=
  { s with events := s.events ++ [.latch w], anyLatch := true, devBusy := busyClass w }

/-- Why a word latched now is not executed: the device was put into 4-bit mode (R228), it is still busy (R222). -/
def latchFaults (w : BusWord) (s : State) : List FaultRecord :=
  (if s.dev.nibble then [.lcdMode w s.pos] else []) ++ (if s.devBusy ≠ .free then [.lcdBusy w s.pos] else [])

/-- The device latches word `w`, which enters the bus trace (R220), and executes it with effect `f`, or faults where
there is a reason (R222, R228) and does not execute it. DESIGN CHOICE (log 13): of two reasons the outcome has
`F_LCD_MODE`, while the set `faults` has both. -/
def latch (w : BusWord) (f : State → State) (s : State) : Host.Outcome State Fault Refusal :=
  match latchFaults w s with
  | [] => .next (f (s.latched w)).strayCursor
  | r :: rs => .fault (r.leaving ((s.latched w).marked (r :: rs)))

/-- The device time of a busy class is covered by a delay of `t` (R183). -/
def covers (c : Config) (b : Busy) (t : Nat) : Bool :=
  match b with
  | .free => true
  | .short => c.devTShort ≤ t
  | .long => c.devTLong ≤ t

/-! ### Delays (R183, R283) -/

/-- `Delay(t)`: recorded, and over. -/
def State.delay (s : State) (t : Nat) : State := { s with events := s.events ++ [.delay t] }

/-- The settle delay W6 of a word `rs, b` (R183, R184). -/
def State.settleDelay (s : State) (rs : Bool) (b : Byte) : State :=
  { s.delay (settleTime s.cfg rs b) with
    devBusy := if covers s.cfg s.devBusy (settleTime s.cfg rs b) then .free else s.devBusy }

/-! ### Taking a column interrupt and returning from it (R272, R276, R277) -/

/-- `Enter(c)`: the handler's next step is S1; the foreground's continuation and every register and cell stay. -/
def enterHandler (c : Col) (s : State) : State := { s with isrpos := some { col := c, k := 1 } }

/-- S9: control goes back to the foreground's continuation; nothing else is restored. -/
def returnFromHandler (s : State) : State := { s with isrpos := none }

/-! ### The environment (R163, R300, R304, R34) -/

/-- Cold reset: R58's state, any operation in progress dropped; the environment's key matrix and `bouncing` stay
(R300), and so does what lies outside the block: the observations made, the commands not accepted, the turns laid
down and the free values' stamp (log 14). -/
def coldReset (s : State) : State :=
  { State.resetWith s.cfg with
    keys := s.keys
    bouncing := s.bouncing
    events := s.events
    port := s.port
    sched := s.sched
    draws := s.draws }

/-- `LcdPowered`, at most once after reset: where no word has been latched, the device is free (R304). -/
def powerLcd (s : State) : State :=
  if s.lcdPowered then s
  else { s with lcdPowered := true, devBusy := if s.anyLatch then s.devBusy else .free }

/-- An environment step, and the re-evaluation after it (R160). -/
def envStep (e : EnvStep) (s : State) : Host.Outcome State Fault Refusal :=
  match e with
  | .key r c closed => .next { s with keys := setKey s.keys r c closed }.settle
  | .bounce b => .next { s with bouncing := b }.settle
  | .lcdPowered => .next (powerLcd s).settle
  | .reset => .next (coldReset s).settle
  | .tableChanged => if s.lutInstalled then .refused (.lutAliased s.pos) else .next s.settle

/-! ### Stops (R260, R261) -/

/-- The state an outcome leaves: a fault's own (R261); for a refusal the mark set and nothing else changed (R260). -/
def stopped (s : State) (o : Host.Outcome State Fault Refusal) : State :=
  match o with
  | .next t => t
  | .fault f => f.left
  | .refused r => { s with refused := some r }

/-- The machine "takes no further step" once it is marked: it answers the mark again. -/
def alreadyStopped (s : State) : Option (Host.Outcome State Fault Refusal) :=
  match s.faults with
  | f :: _ => some (.fault (f.leaving s))
  | [] => match s.refused with
    | some r => some (.refused r)
    | none => none

/-- The turn is over: its bound no longer holds (log 3). -/
def State.turnOver (s : State) : State := { s with quantum := none }

end Sys2Proof.Machine
end

