-- ==== Sys2Proof/Machine/Device.lean ====
section
/-! DEFINITION. The LCD bus words' meanings (42_lcd_bus R223–R234): what the display device does with a word it
latches. -/

namespace Sys2Proof.Machine

/-- The bus word of an LCD instruction (R104, R105); 0 for an instruction of another format. -/
def lbWord (i : Instr) : BusWord :=
  match encode i with
  | .lb w => w
  | .hc _ => 0
  | .irq _ => 0

/-! ### Cursor, shift and addresses -/

/-- `Adv((col, row), ±1)` in two-line mode (R242). -/
def advance (right : Bool) (p : Cursor) : Cursor :=
  if right then
    if p.col.val < 39 then { col := p.col + 1, row := p.row } else { col := 0, row := 1 - p.row }
  else
    if 0 < p.col.val then { col := p.col - 1, row := p.row } else { col := 39, row := 1 - p.row }

/-- `(shift ± 1) mod 40` (R227, R231, R243). -/
def shiftBy (right : Bool) (n : Fin 40) : Fin 40 := if right then n + 1 else n - 1

/-- `(cgaddr ± 1) mod 64` (R229, R231). -/
def cgStep (up : Bool) (a : BitVec 6) : BitVec 6 := if up then a + 1 else a - 1

/-- `ADD ∈ 0x00..0x27 ∪ 0x40..0x67` (R230). -/
def validDdram (a : BitVec 7) : Bool := a.toNat ≤ 0x27 || (0x40 ≤ a.toNat && a.toNat ≤ 0x67)

/-- `Pos(a) = (a & 0x3F, a >> 6)` (R241). -/
def cursorAt (a : BitVec 7) : Cursor :=
  { col := Fin.ofNat 40 (a.toNat % 64), row := Fin.ofNat 2 (a.toNat / 64) }

/-- The visible character at screen position `(p, row)`, `ddram[row][(p + shift) mod 40]` (R243). -/
def visibleChar (s : State) (row : Fin 2) (p : Fin 40) : Byte :=
  memRead s.vram (cursorAddr { col := p + s.dev.shift, row := row })

/-! ### Effects -/

/-- R223: DDRAM all spaces, cursor home, no display shift, `ID` back to 1; CGRAM kept. -/
def clearEffect (s : State) : State :=
  { s with
    vram := memClearDdram s.vram
    dev := { s.dev with cursor := { col := 0, row := 0 }, space := .ddram, shift := 0, id := true } }

/-- R224. -/
def homeEffect (s : State) : State :=
  { s with dev := { s.dev with cursor := { col := 0, row := 0 }, space := .ddram, shift := 0 } }

/-- R225. -/
def entryModeEffect (id sh : Bool) (s : State) : State := { s with dev := { s.dev with id := id, sh := sh } }

/-- R226. -/
def displayEffect (d c b : Bool) (s : State) : State := { s with dev := { s.dev with d := d, c := c, b := b } }

/-- R227. -/
def cursorShiftEffect (sc rl : Bool) (s : State) : State :=
  if sc then { s with dev := { s.dev with shift := shiftBy rl s.dev.shift } }
  else { s with dev := { s.dev with cursor := advance rl s.dev.cursor } }

/-- R228: a 4-bit setting makes every later latch a fault. -/
def functionSetEffect (dl n f : Bool) (s : State) : State :=
  { s with dev := { s.dev with dl := dl, n := n, f := f, nibble := s.dev.nibble || !dl } }

/-- R229. -/
def cgramAddrEffect (a : BitVec 6) (s : State) : State :=
  { s with dev := { s.dev with space := .cgram, cgaddr := a } }

/-- R230; for an invalid address the cursor is any value (I11), and whether the display memory is selected is open
where it was not (log 6). -/
def ddramAddrEffect (a : BitVec 7) (s : State) : State :=
  if validDdram a then { s with dev := { s.dev with space := .ddram, cursor := cursorAt a } }
  else { s with
    dev := { s.dev with
      cursor := { col := Config.freeCol s.draws, row := Config.freeRow s.draws }
      space := if s.dev.space = .cgram && !Config.freeSelect s.draws then .cgram else .ddram }
    draws := s.draws + 1 }

/-- R231: the byte stored at the cursor, or five bits at the CGRAM address, and the position moved by `ID`; with `SH` a
DDRAM write shifts the display. The five bits are any value (I24; log 39). -/
def writeDataEffect (b : Byte) (s : State) : State :=
  match s.dev.space with
  | .ddram =>
    { s with
      vram := memWrite s.vram (cursorAddr s.dev.cursor) b
      dev := { s.dev with
        cursor := advance s.dev.id s.dev.cursor
        shift := if s.dev.sh then shiftBy s.dev.id s.dev.shift else s.dev.shift } }
  | .cgram =>
    { s with
      vram := memWrite s.vram (cgramAddr s.dev.cgaddr) ((Config.freeGlyph s.draws b).setWidth 8)
      dev := { s.dev with cgaddr := cgStep s.dev.id s.dev.cgaddr }
      draws := s.draws + 1 }

/-! ### Meanings -/

/-- `CLEAR_DISPLAY` (R223). -/
def execClearDisplay (s : State) : Host.Outcome State Fault Refusal :=
  latch (lbWord .clearDisplay) clearEffect s

/-- `RETURN_HOME` (R224); `D[0]` ignored. -/
def execReturnHome (x : Bool) (s : State) : Host.Outcome State Fault Refusal :=
  latch (lbWord (.returnHome x)) homeEffect s

/-- `ENTRY_MODE_SET` (R225). -/
def execEntryModeSet (id sh : Bool) (s : State) : Host.Outcome State Fault Refusal :=
  latch (lbWord (.entryModeSet id sh)) (entryModeEffect id sh) s

/-- `DISPLAY_CONTROL` (R226). -/
def execDisplayControl (d c b : Bool) (s : State) : Host.Outcome State Fault Refusal :=
  latch (lbWord (.displayControl d c b)) (displayEffect d c b) s

/-- `CURSOR_DISPLAY_SHIFT` (R227); `D[1:0]` ignored. -/
def execCursorDisplayShift (sc rl : Bool) (x : BitVec 2) (s : State) : Host.Outcome State Fault Refusal :=
  latch (lbWord (.cursorDisplayShift sc rl x)) (cursorShiftEffect sc rl) s

/-- `FUNCTION_SET` (R228); `D[1:0]` ignored. -/
def execFunctionSet (dl n f : Bool) (x : BitVec 2) (s : State) : Host.Outcome State Fault Refusal :=
  latch (lbWord (.functionSet dl n f x)) (functionSetEffect dl n f) s

/-- `SET_CGRAM_ADDR` (R229). -/
def execSetCgramAddr (a : BitVec 6) (s : State) : Host.Outcome State Fault Refusal :=
  latch (lbWord (.setCgramAddr a)) (cgramAddrEffect a) s

/-- `SET_DDRAM_ADDR` (R230). -/
def execSetDdramAddr (a : BitVec 7) (s : State) : Host.Outcome State Fault Refusal :=
  latch (lbWord (.setDdramAddr a)) (ddramAddrEffect a) s

/-- `WRITE_DATA` (R231). -/
def execWriteData (b : Byte) (s : State) : Host.Outcome State Fault Refusal :=
  latch (lbWord (.writeData b)) (writeDataEffect b) s

/-- `READ_BF_AC`: "A model asked to issue it refuses with `R_LCD_READ`" (R232). -/
def execReadBfAc (x : Byte) (s : State) : Host.Outcome State Fault Refusal :=
  .refused (.lcdRead (lbWord (.readBfAc x)) s.pos)

/-- `READ_DATA`: "a model asked to issue it refuses with `R_LCD_READ`" (R233). -/
def execReadData (x : Byte) (s : State) : Host.Outcome State Fault Refusal :=
  .refused (.lcdRead (lbWord (.readData x)) s.pos)

/-! ### A word on the bus -/

/-- The device executes the instruction of a latched word; an instruction of another format is never on the bus. -/
def deviceExec (i : Instr) (s : State) : Host.Outcome State Fault Refusal :=
  match i with
  | .clearDisplay => execClearDisplay s
  | .returnHome x => execReturnHome x s
  | .entryModeSet id sh => execEntryModeSet id sh s
  | .displayControl d c b => execDisplayControl d c b s
  | .cursorDisplayShift sc rl x => execCursorDisplayShift sc rl x s
  | .functionSet dl n f x => execFunctionSet dl n f x s
  | .setCgramAddr a => execSetCgramAddr a s
  | .setDdramAddr a => execSetDdramAddr a s
  | .writeData b => execWriteData b s
  | .readBfAc x => execReadBfAc x s
  | .readData x => execReadData x s
  | .kpdInit | .kpdClear | .kpdGet | .kpdWait | .kpdGetWait | .kpdGetChar | .kpdGetCharWait
  | .kpdToChar _ | .kpdSetCharLut _ | .lcdInit | .lcdClear | .lcdHome | .lcdCursorSet _ _
  | .lcdCursorShow | .lcdCursorHide | .lcdPrint _ | .lcdWriteInstr _ | .lcdWriteData _
  | .hcReservedLow _ | .hcReservedHigh _
  | .kpdIsrCol0 | .kpdIsrCol1 | .kpdIsrCol2 | .kpdIsrCol3 => .refused (.lcdReserved 0 s.pos)

/-- The device latches a word (R220); the word 0x000 is no instruction class and is refused (R110, R234). -/
def latchWord (w : BusWord) (s : State) : Host.Outcome State Fault Refusal :=
  match decodeBus w with
  | .ok i => deviceExec i s
  | .error _ => .refused (.lcdReserved (w.setWidth 32) s.pos)

end Sys2Proof.Machine
end

