-- ==== Sys2Proof/Machine/Micro.lean ====
section
/-! DEFINITION. Micro-steps (R8, R12): what each one does, and how an operation's micro-steps are run in a turn
(R49, R272–R277). -/

namespace Sys2Proof.Machine

/-- The two execution contexts (R279). -/
inductive Ctx where
  | fg
  | isr
  deriving DecidableEq, Repr

/-- One micro-step of the pseudocode (R12). -/
inductive Micro where
  /-- `t <- RegRead(role)`. -/
  | read (r : Role)
  /-- `RegWrite(role, f(t))`. -/
  | write (r : Role) (u : Upd)
  /-- `slot <- 0` (K9, C1, W1). -/
  | clearSlot
  /-- `v <- slot` (G1 of R135). -/
  | readSlot
  /-- `v <- slot; return v` (G1 of R132, R134). -/
  | returnSlot
  /-- `v <- slot`, repeated while it is 0 (W2 and W3 of R133). -/
  | pollSlot
  /-- `return ToChar(v)` (X1 of R135, R136). -/
  | returnCharOfV
  /-- `return ToChar(key)` (X1 of R146). -/
  | returnCharOf (key : Word)
  /-- `lut <- table` (L1). -/
  | setLut (table : Vector Byte 17)
  /-- `kpd_init <- true` (K10). -/
  | setKpdInit
  /-- `lcd_init <- true` (I8). -/
  | setLcdInit
  /-- `BusSet(E, b)` (W1, W5 of R181). -/
  | busE (b : Bool)
  /-- `BusSet(RS, b)` (W2). -/
  | busRs (b : Bool)
  /-- `BusSet(RW, b)` (W3). -/
  | busRw (b : Bool)
  /-- `BusSet(D, b)` (W4). -/
  | busD (b : Byte)
  /-- `Delay(SettleTime(rs, b))` (W6). -/
  | settleDelay (rs : Bool) (b : Byte)
  /-- `Delay(T_DEBOUNCE)` (S3). -/
  | debounce
  /-- `t <- RegRead(IDR)` and the row sample (S4). -/
  | sample
  /-- `r <- rowlut[s]` (S5). -/
  | lookup
  /-- `slot <- 4r + c + 1` (S5, where `r` is a row). -/
  | record (c : Col)
  /-- `RegWrite(PR, 1 << c)` (S7). -/
  | ack (c : Col)
  deriving DecidableEq, Repr

/-! ### What a micro-step does -/

/-- The context's local `t` (R280). -/
def localT (x : Ctx) (s : State) : Word :=
  match x with
  | .fg => s.fgT
  | .isr => s.isrT

/-- `t <- v`. -/
def setLocalT (x : Ctx) (v : Word) (s : State) : State :=
  match x with
  | .fg => { s with fgT := v }
  | .isr => { s with isrT := v }

/-- `t <- RegRead(role)` (R81). -/
def microRead (x : Ctx) (r : Role) (s : State) : Host.Outcome State Fault Refusal :=
  match regRead r s with
  | .ok v => .next (setLocalT x v s)
  | .error f => .fault f

/-- LCD lines changed through `LODR` (R48), whose clock must run (R37). -/
def busLine (f : Word → Word) (s : State) : Host.Outcome State Fault Refusal :=
  regWrite .lodr (f (lcdOut s)) s

/-- `E` is driven at 1. -/
def enableHigh (s : State) : Bool :=
  lcdDrives s s.cfg.layout.lcdE && (lcdOut s).getLsbD s.cfg.layout.lcdE.val

/-- `BusSet(E, b)`: where a driven `E` goes from 1 to 0, the device latches the levels of that micro-step (R220); an
undriven `E` has no edge of the block's making (R244). -/
def busEnable (b : Bool) (s : State) : Host.Outcome State Fault Refusal :=
  match busLine (fun w => setBit w s.cfg.layout.lcdE.val b) s with
  | .next t => if enableHigh s && !b then latchWord (busLevels t) t else .next t
  | .fault f => .fault f
  | .refused r => .refused r

/-- Row `r`'s pin, among the keypad's eight, at bit `r` of the sample. -/
def sampleBit (c : Config) (pins : BitVec 8) (r : Row) : BitVec 4 :=
  maskBit 4 (pins.getLsbD (pinOf c (rowLine r)).val) r.val

/-- `s <- {t[ROW_PIN(3)], …, t[ROW_PIN(0)]}`: bit r of the sample is row r's pin in `IDR[7:0]` (R150, R155). -/
def rowSample (c : Config) (pins : BitVec 8) : BitVec 4 :=
  sampleBit c pins 0 ||| sampleBit c pins 1 ||| sampleBit c pins 2 ||| sampleBit c pins 3

/-- S4: `IDR` read once, and the row sample taken from its owned bits, the pins' levels. -/
def sampleRows (s : State) : Host.Outcome State Fault Refusal :=
  match regRead .idr s with
  | .ok v => .next { s with isrT := v, isrS := rowSample s.cfg (pinLevels s), draws := s.draws + 1 }
  | .error f => .fault f

/-- `slot <- 4r + c + 1` where the looked-up row is one; no write at all where it is none (R151). -/
def recordKey (c : Col) (s : State) : State :=
  match s.isrR with
  | .row r => { s with slot := keyCode r c }
  | .noMatch => s

/-- One micro-step of context `x`, before the re-evaluation that ends it. -/
def micro (x : Ctx) (m : Micro) (s : State) : Host.Outcome State Fault Refusal :=
  match m with
  | .read r => microRead x r s
  | .write r u => regUpdate r u (localT x s) s
  | .clearSlot => .next { s with slot := 0 }
  | .readSlot => .next { s with fgV := s.slot }
  | .returnSlot => .next { s with fgV := s.slot, result := some s.slot }
  | .pollSlot => .next { s with fgV := s.slot }
  | .returnCharOfV => .next { s with result := some (toChar s.lut (keyOfByte s.fgV)) }
  | .returnCharOf key => .next { s with result := some (toChar s.lut key) }
  | .setLut table => .next { s with lut := table, lutInstalled := true }
  | .setKpdInit => .next { s with kpdInit := true }
  | .setLcdInit => .next { s with lcdInit := true }
  | .busE b => busEnable b s
  | .busRs b => busLine (fun w => setBit w s.cfg.layout.lcdRs.val b) s
  | .busRw b => busLine (fun w => setBit w s.cfg.layout.lcdRw.val b) s
  | .busD b => busLine (setData s.cfg.layout b) s
  | .settleDelay rs b => .next (s.settleDelay rs b)
  | .debounce => .next (s.delay s.cfg.tDebounce)
  | .sample => sampleRows s
  | .lookup => .next { s with isrR := rowlut s.cfg s.isrS }
  | .record c => .next (recordKey c s)
  | .ack c => regWrite .pr (maskBit 32 true c.val) s

/-! ### Running an operation's micro-steps in a turn (log 3) -/

/-- The turn's bound, with one micro-step spent. -/
def spend (q : Option Nat) : Option Nat :=
  match q with
  | some n => some (n - 1)
  | none => none

/-- The foreground may take its next micro-step: its bounded turn is not used up; in an unbounded turn no line
requests service, which the default scheduler serves first (R273, R275). -/
def mayRun (q : Option Nat) (s : State) : Bool :=
  match q with
  | some n => n != 0
  | none => !requesting s

/-- A poll that read 0 is repeated: W3 goes back to W2 (R133). -/
def pollAgain (m : Micro) (s : State) : Bool := m = .pollSlot && s.fgV == 0

/-- The foreground at micro-step `k` of operation `i`, with the micro-steps left: each is taken at its position, is
followed by the re-evaluation of R160, and the last one returns `fgpos` to `Idle` (R49). A poll that is to be
repeated ends the turn at the same position. -/
def runFg (i : Instr) (k : Nat) (ms : List Micro) (q : Option Nat) (s : State) :
    Host.Outcome State Fault Refusal :=
  match ms with
  | [] => .next { s with fgpos := .idle }
  | m :: rest =>
    if mayRun q s then
      match micro .fg m { s with fgpos := .inOp i k } with
      | .next t =>
        if pollAgain m t then .next t.settle
        else runFg i (k + 1) rest (spend q) t.settle
      | .fault f => .fault f
      | .refused r => .refused r
    else .next { s with fgpos := .inOp i k }

/-- A record micro-step is none where the sample matched no row (R151, R331: S5 is 1 or 2 micro-steps). -/
def skipsRecord (m : Micro) (s : State) : Bool :=
  match m, s.isrR with
  | .record _, .noMatch => true
  | _, _ => false

/-- The handler of line `c` at micro-step `k` of its scan, with the micro-steps left: it runs to completion (R274),
as far as a bounded turn lets it; after the last one it returns (S9). -/
def runIsr (c : Col) (k : Nat) (ms : List Micro) (q : Option Nat) (s : State) :
    Host.Outcome State Fault Refusal :=
  match ms with
  | [] => if q = some 0 then .next { s with isrpos := some { col := c, k := k } } else .next (returnFromHandler s)
  | m :: rest =>
    if skipsRecord m s then runIsr c (k + 1) rest q s
    else if q = some 0 then .next { s with isrpos := some { col := c, k := k } }
    else
      match micro .isr m { s with isrpos := some { col := c, k := k } } with
      | .next t => runIsr c (k + 1) rest (spend q) t.settle
      | .fault f => .fault f
      | .refused r => .refused r

/-! ### Commands and handlers -/

/-- An LCD host command: `op[7] = 1` (R100). -/
def isLcdCommand (i : Instr) : Bool := i.format == .hc && i.opcode.getLsbD 7

/-- A host command (R100, R49). It is accepted when the foreground is idle: its checks come first (R262, R275), then
its micro-steps from the first; if the foreground is inside this very operation, it goes on from its position; inside
another one, or under a running handler, the foreground takes no step of it (R274), and an LCD operation asked for in
the handler context is refused (R202). DESIGN CHOICE (logs 22, 28, 40): what is not taken changes nothing, an LCD
command asked for while a handler runs counts as asked for in its context, and `R_LCD_FROM_ISR` is answered even where
`lcd_init = false` (R262). -/
def hostCommand (i : Instr) (checks : State → Option Refusal) (prog : List Micro) (s : State) :
    Host.Outcome State Fault Refusal :=
  match s.isrpos with
  | some _ => if isLcdCommand i then .refused (.lcdFromIsr i.opcode s.pos) else .next s.turnOver
  | none =>
    match s.fgpos with
    | .idle =>
      match checks s with
      | some r => .refused r
      | none => runFg i 1 prog s.quantum { s.turnOver with result := none }
    | .inOp j k => if j = i then runFg i k (prog.drop (k - 1)) s.quantum s.turnOver else .next s.turnOver

/-- An interrupt event of line `c` (R103, R272): where no handler runs and the line requests, the handler is entered
and scans; where it is the one that runs, it goes on; else the event is not taken (R274). -/
def columnHandler (c : Col) (prog : List Micro) (s : State) : Host.Outcome State Fault Refusal :=
  match s.isrpos with
  | none => if req s c then runIsr c 1 prog s.quantum (enterHandler c s.turnOver) else .next s.turnOver
  | some p => if p.col = c then runIsr c p.k (prog.drop (p.k - 1)) s.quantum s.turnOver else .next s.turnOver

/-! ### Checks before the first micro-step (R262) -/

/-- "Every KPD host command other than `KPD_INIT` is refused … while `kpd_init = false`." -/
def kpdReady (op : Byte) (s : State) : Option Refusal :=
  if s.kpdInit then none else some (.notInitialized op s.pos)

/-- "Every LCD host command other than `LCD_INIT` is refused … while `lcd_init = false`." -/
def lcdReady (op : Byte) (s : State) : Option Refusal :=
  if s.lcdInit then none else some (.notInitialized op s.pos)

end Sys2Proof.Machine
end

