-- ==== Sys2Proof/Machine/Isr.lean ====
section
/-! DEFINITION. The column handlers and the scan routine (40_keypad R148–R159). -/

namespace Sys2Proof.Machine

/-- `Scan(c)`, S1–S8 (R150); S9 is the return that `runIsr` takes after the last micro-step. -/
def scanProgram (c : Col) : List Micro :=
  [.read .imr, .write .imr .linesOff,
   .read .mode, .write .mode .modeScan,
   .debounce,
   .sample,
   .lookup, .record c,
   .read .mode, .write .mode .modeIdle,
   .ack c,
   .read .imr, .write .imr .linesOn]

/-- `KPD_ISR_COL0`: `ISR(0) = Scan(0)` (R148). -/
def execKpdIsrCol0 (s : State) : Host.Outcome State Fault Refusal := columnHandler 0 (scanProgram 0) s

/-- `KPD_ISR_COL1`: `ISR(1) = Scan(1)` (R148). -/
def execKpdIsrCol1 (s : State) : Host.Outcome State Fault Refusal := columnHandler 1 (scanProgram 1) s

/-- `KPD_ISR_COL2`: `ISR(2) = Scan(2)` (R148). -/
def execKpdIsrCol2 (s : State) : Host.Outcome State Fault Refusal := columnHandler 2 (scanProgram 2) s

/-- `KPD_ISR_COL3`: `ISR(3) = Scan(3)` (R148). -/
def execKpdIsrCol3 (s : State) : Host.Outcome State Fault Refusal := columnHandler 3 (scanProgram 3) s

end Sys2Proof.Machine
end

