-- ==== Sys2Proof/Machine/Keypad.lean ====
section
/-! DEFINITION. The keypad commands (40_keypad R130–R147): each one's micro-steps and its meaning. -/

namespace Sys2Proof.Machine

/-- K1–K10 (R130); each `RegRMW` is two micro-steps (R83). -/
def kpdInitProgram : List Micro :=
  [.read .clken, .write .clken .clkKeypad,
   .read .mode, .write .mode .modeIdle,
   .read .pull, .write .pull .pullAll,
   .read .odr, .write .odr .odrHigh,
   .read .mux, .write .mux .muxRoute,
   .read .rtsr, .write .rtsr .linesOn,
   .read .imr, .write .imr .linesOn,
   .read .irqen, .write .irqen .irqOn,
   .clearSlot, .setKpdInit]

/-- C1 (R131). -/
def kpdClearProgram : List Micro := [.clearSlot]

/-- G1 (R132). -/
def kpdGetProgram : List Micro := [.returnSlot]

/-- W1–W4 (R133). -/
def kpdWaitProgram : List Micro := [.clearSlot, .pollSlot]

/-- W1–W4, G1 (R134). -/
def kpdGetWaitProgram : List Micro := kpdWaitProgram ++ [.returnSlot]

/-- G1, X1 (R135). -/
def kpdGetCharProgram : List Micro := [.readSlot, .returnCharOfV]

/-- W1–W4, G1, X1 (R136). -/
def kpdGetCharWaitProgram : List Micro := kpdWaitProgram ++ kpdGetCharProgram

/-- X1 (R146). -/
def kpdToCharProgram (key : Word) : List Micro := [.returnCharOf key]

/-- L1 (R147). -/
def kpdSetCharLutProgram (table : Vector Byte 17) : List Micro := [.setLut table]

/-- `KPD_INIT` (R130); it has no check of its own. -/
def execKpdInit (s : State) : Host.Outcome State Fault Refusal :=
  hostCommand .kpdInit (fun _ => none) kpdInitProgram s

/-- `KPD_CLEAR` (R131). -/
def execKpdClear (s : State) : Host.Outcome State Fault Refusal :=
  hostCommand .kpdClear (kpdReady Instr.kpdClear.opcode) kpdClearProgram s

/-- `KPD_GET` (R132). -/
def execKpdGet (s : State) : Host.Outcome State Fault Refusal :=
  hostCommand .kpdGet (kpdReady Instr.kpdGet.opcode) kpdGetProgram s

/-- `KPD_WAIT` (R133). -/
def execKpdWait (s : State) : Host.Outcome State Fault Refusal :=
  hostCommand .kpdWait (kpdReady Instr.kpdWait.opcode) kpdWaitProgram s

/-- `KPD_GET_WAIT` (R134). -/
def execKpdGetWait (s : State) : Host.Outcome State Fault Refusal :=
  hostCommand .kpdGetWait (kpdReady Instr.kpdGetWait.opcode) kpdGetWaitProgram s

/-- `KPD_GET_CHAR` (R135). -/
def execKpdGetChar (s : State) : Host.Outcome State Fault Refusal :=
  hostCommand .kpdGetChar (kpdReady Instr.kpdGetChar.opcode) kpdGetCharProgram s

/-- `KPD_GET_CHAR_WAIT` (R136). -/
def execKpdGetCharWait (s : State) : Host.Outcome State Fault Refusal :=
  hostCommand .kpdGetCharWait (kpdReady Instr.kpdGetCharWait.opcode) kpdGetCharWaitProgram s

/-- `KPD_TO_CHAR` (R146). -/
def execKpdToChar (key : Word) (s : State) : Host.Outcome State Fault Refusal :=
  hostCommand (.kpdToChar key) (kpdReady (Instr.kpdToChar key).opcode) (kpdToCharProgram key) s

/-- `KPD_SET_CHAR_LUT` (R147). -/
def execKpdSetCharLut (table : Vector Byte 17) (s : State) : Host.Outcome State Fault Refusal :=
  hostCommand (.kpdSetCharLut table) (kpdReady (Instr.kpdSetCharLut table).opcode)
    (kpdSetCharLutProgram table) s

end Sys2Proof.Machine
end

