-- ==== Sys2Proof/Machine/Lcd.lean ====
section
/-! DEFINITION. The LCD commands (41_lcd_ops R181–R203): the write protocol's micro-steps, each command's micro-steps
and its meaning. -/

namespace Sys2Proof.Machine

/-! ### The write protocol (R181) -/

/-- W1–W6 of `WriteBus(rs, v)` for a byte (R181). -/
def writeByte (rs : Bool) (b : Byte) : List Micro :=
  [.busE true, .busRs rs, .busRw false, .busD b, .busE false, .settleDelay rs b]

/-- `WriteBus(rs, v)`: a value wider than the bus is dropped with no effect at all (R181, R182). -/
def writeBus (rs : Bool) (v : Word) : List Micro :=
  if 0xFF < v.toNat then [] else writeByte rs (v.setWidth 8)

/-- `WriteInstr(v) = WriteBus(0, v)` for a byte (R186). -/
def writeInstr (b : Byte) : List Micro := writeByte false b

/-- `WriteData(v) = WriteBus(1, v)` for a byte (R186). -/
def writeChar (b : Byte) : List Micro := writeByte true b

/-! ### Each command's micro-steps -/

/-- I1–I8 (R189). -/
def lcdInitProgram : List Micro :=
  [.read .clken, .write .clken .clkLcd, .read .lmode, .write .lmode .lcdOutput]
    ++ writeInstr functionSetByte ++ writeInstr functionSetByte ++ writeInstr iDispCurBlink
    ++ writeInstr iClear ++ writeInstr iEntryInc ++ [.setLcdInit]

/-- R191. -/
def lcdClearProgram : List Micro := writeInstr iClear

/-- R192. -/
def lcdHomeProgram : List Micro := writeInstr iHome

/-- R193. -/
def lcdCursorShowProgram : List Micro := writeInstr iDispCurBlink

/-- R194. -/
def lcdCursorHideProgram : List Micro := writeInstr iDispNocurBlink

/-- `n` times `WriteInstr(I_CURSOR_RIGHT)`, CS2 (R195). -/
def shiftsRight : Nat → List Micro
  | 0 => []
  | n + 1 => writeInstr iCursorRight ++ shiftsRight n

/-- CS1, then one CS2 for each of the `40·y + x` shifts (R195, R198). -/
def lcdCursorSetProgram (x y : Byte) : List Micro := writeInstr iHome ++ shiftsRight (cursorShifts x y)

/-- P1 for each character (R199). -/
def lcdPrintProgram : List Byte → List Micro
  | [] => []
  | b :: s => writeChar b ++ lcdPrintProgram s

/-- R187. -/
def lcdWriteInstrProgram (v : Word) : List Micro := writeBus false v

/-- R188. -/
def lcdWriteDataProgram (v : Word) : List Micro := writeBus true v

/-! ### Checks before the first micro-step, R262 first (R275) -/

/-- `x < LCD_COLS and y < LCD_ROWS`, or `R_CURSOR_RANGE` (R195, R196). -/
def cursorChecks (x y : Byte) (s : State) : Option Refusal :=
  match lcdReady (Instr.lcdCursorSet x y).opcode s with
  | some r => some r
  | none => if x.toNat < lcdCols && y.toNat < lcdRows then none else some (.cursorRange x y s.pos)

/-- `length(s) ≤ PRINT_MAX`, or `R_PRINT_TOO_LONG` (R199, R200). -/
def printChecks (str : List Byte) (s : State) : Option Refusal :=
  match lcdReady (Instr.lcdPrint str).opcode s with
  | some r => some r
  | none => if str.length ≤ printMax then none else some (.printTooLong str.length s.pos)

/-- `v ≠ 0`, or `R_LCD_RESERVED` (R187, R234). -/
def writeInstrChecks (v : Word) (s : State) : Option Refusal :=
  match lcdReady (Instr.lcdWriteInstr v).opcode s with
  | some r => some r
  | none => if v = 0 then some (.lcdReserved v s.pos) else none

/-! ### Meanings -/

/-- `LCD_INIT` (R189, R190); it has no check of its own. -/
def execLcdInit (s : State) : Host.Outcome State Fault Refusal :=
  hostCommand .lcdInit (fun _ => none) lcdInitProgram s

/-- `LCD_CLEAR` (R191). -/
def execLcdClear (s : State) : Host.Outcome State Fault Refusal :=
  hostCommand .lcdClear (lcdReady Instr.lcdClear.opcode) lcdClearProgram s

/-- `LCD_HOME` (R192). -/
def execLcdHome (s : State) : Host.Outcome State Fault Refusal :=
  hostCommand .lcdHome (lcdReady Instr.lcdHome.opcode) lcdHomeProgram s

/-- `LCD_CURSOR_SET` (R195). -/
def execLcdCursorSet (x y : Byte) (s : State) : Host.Outcome State Fault Refusal :=
  hostCommand (.lcdCursorSet x y) (cursorChecks x y) (lcdCursorSetProgram x y) s

/-- `LCD_CURSOR_SHOW` (R193). -/
def execLcdCursorShow (s : State) : Host.Outcome State Fault Refusal :=
  hostCommand .lcdCursorShow (lcdReady Instr.lcdCursorShow.opcode) lcdCursorShowProgram s

/-- `LCD_CURSOR_HIDE` (R194). -/
def execLcdCursorHide (s : State) : Host.Outcome State Fault Refusal :=
  hostCommand .lcdCursorHide (lcdReady Instr.lcdCursorHide.opcode) lcdCursorHideProgram s

/-- `LCD_PRINT` (R199). -/
def execLcdPrint (str : List Byte) (s : State) : Host.Outcome State Fault Refusal :=
  hostCommand (.lcdPrint str) (printChecks str) (lcdPrintProgram str) s

/-- `LCD_WRITE_INSTR` (R187). -/
def execLcdWriteInstr (v : Word) (s : State) : Host.Outcome State Fault Refusal :=
  hostCommand (.lcdWriteInstr v) (writeInstrChecks v) (lcdWriteInstrProgram v) s

/-- `LCD_WRITE_DATA` (R188). -/
def execLcdWriteData (v : Word) (s : State) : Host.Outcome State Fault Refusal :=
  hostCommand (.lcdWriteData v) (lcdReady (Instr.lcdWriteData v).opcode) (lcdWriteDataProgram v) s

end Sys2Proof.Machine
end

