-- ==== Sys2Proof/Machine/Reserved.lean ====
section
/-! DEFINITION. The reserved host opcodes (30_encoding R109). -/

namespace Sys2Proof.Machine

/-- `HC_RESERVED_LOW`: "A reserved opcode is refused with `R_RESERVED_OPCODE` … It changes no state" (R109). -/
def execHcReservedLow (op : Byte) (s : State) : Host.Outcome State Fault Refusal :=
  .refused (.reservedOpcode op s.pos)

/-- `HC_RESERVED_HIGH`: "A reserved opcode is refused with `R_RESERVED_OPCODE` … It changes no state" (R109). -/
def execHcReservedHigh (op : Byte) (s : State) : Host.Outcome State Fault Refusal :=
  .refused (.reservedOpcode op s.pos)

end Sys2Proof.Machine
end

