-- ==== Sys2Proof/Machine/Dispatch.lean ====
section
/-! DEFINITION. One arm per instruction. -/

namespace Sys2Proof.Machine

def exec (i : Instr) (s : State) : Host.Outcome State Fault Refusal :=
  match i with
  | .kpdInit => Sys2Proof.Machine.execKpdInit s
  | .kpdClear => Sys2Proof.Machine.execKpdClear s
  | .kpdGet => Sys2Proof.Machine.execKpdGet s
  | .kpdWait => Sys2Proof.Machine.execKpdWait s
  | .kpdGetWait => Sys2Proof.Machine.execKpdGetWait s
  | .kpdGetChar => Sys2Proof.Machine.execKpdGetChar s
  | .kpdGetCharWait => Sys2Proof.Machine.execKpdGetCharWait s
  | .kpdToChar key => Sys2Proof.Machine.execKpdToChar key s
  | .kpdSetCharLut table => Sys2Proof.Machine.execKpdSetCharLut table s
  | .lcdInit => Sys2Proof.Machine.execLcdInit s
  | .lcdClear => Sys2Proof.Machine.execLcdClear s
  | .lcdHome => Sys2Proof.Machine.execLcdHome s
  | .lcdCursorSet x y => Sys2Proof.Machine.execLcdCursorSet x y s
  | .lcdCursorShow => Sys2Proof.Machine.execLcdCursorShow s
  | .lcdCursorHide => Sys2Proof.Machine.execLcdCursorHide s
  | .lcdPrint str => Sys2Proof.Machine.execLcdPrint str s
  | .lcdWriteInstr v => Sys2Proof.Machine.execLcdWriteInstr v s
  | .lcdWriteData v => Sys2Proof.Machine.execLcdWriteData v s
  | .hcReservedLow op => Sys2Proof.Machine.execHcReservedLow op s
  | .hcReservedHigh op => Sys2Proof.Machine.execHcReservedHigh op s
  | .kpdIsrCol0 => Sys2Proof.Machine.execKpdIsrCol0 s
  | .kpdIsrCol1 => Sys2Proof.Machine.execKpdIsrCol1 s
  | .kpdIsrCol2 => Sys2Proof.Machine.execKpdIsrCol2 s
  | .kpdIsrCol3 => Sys2Proof.Machine.execKpdIsrCol3 s
  | .clearDisplay => Sys2Proof.Machine.execClearDisplay s
  | .returnHome x => Sys2Proof.Machine.execReturnHome x s
  | .entryModeSet id sh => Sys2Proof.Machine.execEntryModeSet id sh s
  | .displayControl d c b => Sys2Proof.Machine.execDisplayControl d c b s
  | .cursorDisplayShift sc rl x => Sys2Proof.Machine.execCursorDisplayShift sc rl x s
  | .functionSet dl n f x => Sys2Proof.Machine.execFunctionSet dl n f x s
  | .setCgramAddr a => Sys2Proof.Machine.execSetCgramAddr a s
  | .setDdramAddr a => Sys2Proof.Machine.execSetDdramAddr a s
  | .writeData b => Sys2Proof.Machine.execWriteData b s
  | .readBfAc x => Sys2Proof.Machine.execReadBfAc x s
  | .readData x => Sys2Proof.Machine.execReadData x s

end Sys2Proof.Machine
end

