-- ==== Sys2Proof/Machine/Scheduler.lean ====
section
/-! DEFINITION. Whose turn it is (R8, R272–R277; log 3): the turns the outside world has laid down come first, and
without one the default scheduler serves a requesting handler, else the foreground. -/

namespace Sys2Proof.Machine

/-- The interrupt event of line `c` (R103). -/
def isrInstr (c : Col) : Instr := decodeIrq (BitVec.ofNat 2 c.val)

/-- The foreground's turn: it goes on with its operation, or accepts the next whole command of the port (R49, R100);
with none there it waits for the host. -/
def foreground (s : State) : Host.Outcome State Fault Refusal :=
  match s.fgpos with
  | .inOp i _ => exec i s
  | .idle =>
    match decodeHc s.port with
    | .ok (i, rest) => exec i { s with port := rest }
    | .error _ => .next s.turnOver

/-- The executing context's turn: a running handler's, else the foreground's (R274). -/
def context (s : State) : Host.Outcome State Fault Refusal :=
  match s.isrpos with
  | some p => exec (isrInstr p.col) s
  | none => foreground s

/-- The default scheduler: a running handler goes on; else a requesting line's is entered at once (R275's reference);
else the foreground moves. -/
def defaultTurn (s : State) : Host.Outcome State Fault Refusal :=
  match s.isrpos with
  | some p => exec (isrInstr p.col) s
  | none =>
    match pickLine s with
    | some c => exec (isrInstr c) s
    | none => foreground s

/-- A bus word asked of the LCD bus: the device executes its instruction; 0x000 has none (R110). -/
def busRequest (w : BusWord) (s : State) : Host.Outcome State Fault Refusal :=
  match decodeBus w with
  | .ok i => exec i s
  | .error _ => .refused (.lcdReserved (w.setWidth 32) s.pos)

/-- One turn. -/
def takeTurn (t : Turn) (s : State) : Host.Outcome State Fault Refusal :=
  match t with
  | .go => defaultTurn s
  | .run n => context { s with quantum := some n }
  | .enter c n => exec (isrInstr c) { s with quantum := some n }
  | .env e => envStep e s
  | .command bytes => .next { s with port := s.port ++ bytes }
  | .busWord w => busRequest w s

/-- One step of the machine: none past a stop (R260, R261) or with a broken configuration (R10, R85); else the next
turn laid down, or the default scheduler's. -/
def schedule (s : State) : Host.Outcome State Fault Refusal :=
  match alreadyStopped s with
  | some o => o
  | none =>
    match s.cfg.broken with
    | some p => .refused (.badConfig p s.pos)
    | none =>
      match s.sched with
      | [] => defaultTurn s
      | t :: rest => takeTurn t { s with sched := rest }

/-- More micro-steps than any command takes (R331: at most 480). -/
def wholeCommand : Nat := 1024

/-- The state in which the next step runs exactly the instruction encoded by `code` (log 26): a command's bytes stand
alone in the port of an idle foreground and the turn is the executing context's; an interrupt event or a bus word is
the turn itself. -/
def placeCode (code : Code) (s : State) : State :=
  match code with
  | .hc bytes =>
    { s with fgpos := .idle, isrpos := none, port := firstCommand bytes, sched := [.run wholeCommand] }
  | .irq c => { s with sched := [.enter ⟨c.toNat, c.isLt⟩ wholeCommand] }
  | .lb w => { s with sched := [.busWord w] }

end Sys2Proof.Machine
end

