-- ==== Sys2Proof/Machine/Step.lean ====
section
/-! DEFINITION. One step of the machine: one turn of one agent (00_scope R8). -/

namespace Sys2Proof.Machine

/-- One turn of one agent. -/
def step (s : State) : Host.Outcome State Fault Refusal := schedule s

/-- `s` with the opcode table's word placed where the next step fetches its instruction (log 26). -/
def State.withFetchWord (s : State) (nbits w : Nat) : State := placeCode (tableCode nbits w) s

end Sys2Proof.Machine
end

