-- ==== Sys2Proof/Safety.lean ====
section
/-! DEFINITION. The terms claims are stated in: when an operation completes, what a safe run keeps, and what an
instruction leaves alone. -/

namespace Sys2Proof.Machine

/-! ### When the foreground completes an operation -/

/-- A host command is accepted: no handler runs and the foreground is idle (R49, R274). -/
abbrev FgIdle (s : State) : Prop := s.isrpos = none ∧ s.fgpos = .idle

/-- The foreground stands at micro-step `k` of operation `i`, and no handler runs (R49). -/
abbrev FgAt (i : Instr) (k : Nat) (s : State) : Prop := s.isrpos = none ∧ s.fgpos = .inOp i k

/-- No column line is both unmasked and delivered, so that no handler can be entered (R271). -/
abbrev Undelivered (s : State) : Prop :=
  ∀ c : Col, (s.regs.imr.getLsbD c.val && irqOn s.cfg.layout s.regs.irqen c) = false

/-- The handler's turn is long enough for the whole scan and its return (R274, R331). -/
abbrev ScanRuns (s : State) : Prop := s.quantum = none ∨ ∃ m, s.quantum = some m ∧ 14 ≤ m

/-! ### The keypad port -/

/-- The port as `KPD_INIT` leaves it (R130, R161): the Idle/Armed configuration. -/
structure PortArmed (s : State) : Prop where
  clock : s.regs.clken.getLsbD s.cfg.layout.clkKpdPort.val = true
  mode : s.regs.mode.extractLsb' 0 16 = idleMode s.cfg
  pull : s.regs.pull.extractLsb' 0 16 = 0xAAAA#16
  odr : s.regs.odr.extractLsb' 0 8 = 0xFF#8
  mux : ∀ c : Col, routed s.cfg.layout s.regs.mux c = true
  rtsr : s.regs.rtsr.extractLsb' 0 4 = 0xF#4
  imr : s.regs.imr.extractLsb' 0 4 = 0xF#4
  irqen : ∀ c : Col, irqOn s.cfg.layout s.regs.irqen c = true

/-- Some key of column `c` is closed. -/
def columnHeld (keys : BitVec 16) (c : Col) : Bool :=
  keyClosed keys 0 c || keyClosed keys 1 c || keyClosed keys 2 c || keyClosed keys 3 c

/-- Some key of row `r` is closed. -/
def rowHeld (keys : BitVec 16) (r : Row) : Bool :=
  keyClosed keys r 0 || keyClosed keys r 1 || keyClosed keys r 2 || keyClosed keys r 3

/-- The settled row sample of a scan: bit r says that some key of row r is closed (R161). -/
def rowsHeld (keys : BitVec 16) : BitVec 4 :=
  maskBit 4 (rowHeld keys 0) 0 ||| maskBit 4 (rowHeld keys 1) 1 ||| maskBit 4 (rowHeld keys 2) 2
    ||| maskBit 4 (rowHeld keys 3) 3

/-- No contact bounces, no pin's level is spoiled, and the edge detector has seen every line's level. -/
structure Calm (s : State) : Prop where
  still : s.bouncing = false
  sound : s.spoiled = 0
  seen : ∀ c : Col, s.lvl.get c = columnHeld s.keys c

/-- The ordinary resting state after `KPD_INIT`: the port is armed and calm and no line requests. -/
structure Quiet (s : State) : Prop where
  wired : s.cfg.Wired
  armed : PortArmed s
  calm : Calm s
  idle : requesting s = false

/-- The foreground's next `n` micro-steps are not pre-empted: its turn is bounded and long enough, or unbounded with
no line delivered, or unbounded in a quiet port (R273, R275). -/
abbrev RunsFor (n : Nat) (s : State) : Prop :=
  (∃ m, s.quantum = some m ∧ n ≤ m) ∨ (s.quantum = none ∧ (Undelivered s ∨ Quiet s))

/-- `KPD_INIT`'s 18 micro-steps are not pre-empted: its turn is bounded and long enough, or unbounded with no edge
selected or pending, as after reset, and no level drawn once the port is armed (R130 b, R303). -/
abbrev InitRuns (s : State) : Prop :=
  (∃ m, s.quantum = some m ∧ 18 ≤ m) ∨
  (s.quantum = none ∧ s.regs.rtsr.extractLsb' 0 4 = 0#4 ∧ s.regs.pr.extractLsb' 0 4 = 0#4 ∧ s.bouncing = false ∧
    s.spoiled = 0 ∧ reservedPins s.regs.mode = 0)

/-! ### The LCD -/

/-- The sequencer can drive the device: clock on, all eleven lines outputs (R37, R48), the device free and in 8-bit
mode (R222, R228). -/
structure LcdCan (s : State) : Prop where
  clock : clocked s .lodr = true
  out : ∀ p ∈ s.cfg.layout.lcdPins, lcdDrives s p = true
  free : s.devBusy = .free
  wide : s.dev.nibble = false

/-- The configured settle delays cover the device's times (R222, R311). -/
abbrev DelaysCover (c : Config) : Prop := c.devTShort ≤ c.tShort.micros ∧ c.devTLong ≤ c.tLong.micros

/-- The device executes a word put on its bus now (R222, R228). -/
abbrev DeviceTakes (s : State) : Prop := s.devBusy = .free ∧ s.dev.nibble = false

/-- The latch and the delay of each written word (R181, R220, R283). -/
def written (c : Config) : List (Bool × Byte) → List Event
  | [] => []
  | (rs, b) :: ws => .latch (busWord rs false b) :: .delay (settleTime c rs b) :: written c ws

/-- The LCD lines after a write: `RS = rs`, `RW = 0`, `E = 0`, `D = b`, and every other bit of the output register as
before (R47, R181, R185). -/
structure LinesAfter (rs : Bool) (b : Byte) (s t : State) : Prop where
  rs : (lcdOut t).getLsbD s.cfg.layout.lcdRs.val = rs
  rw : (lcdOut t).getLsbD s.cfg.layout.lcdRw.val = false
  e : (lcdOut t).getLsbD s.cfg.layout.lcdE.val = false
  d : ∀ i : Fin 8, (lcdOut t).getLsbD (s.cfg.layout.dataPin i).val = b.getLsbD i.val
  other : ∀ n : Nat, (∀ p ∈ s.cfg.layout.lcdPins, p.val ≠ n) → (lcdOut t).getLsbD n = (lcdOut s).getLsbD n

/-- The device's scoreboard after a settle delay of the given class (R183). -/
def busyAfter (c : Config) (b : Busy) (t : Nat) : Busy := if covers c b t then .free else b

/-- An LCD command ended: its words written after what came before, the foreground idle, no result. -/
structure Wrote (s t : State) (ws : List (Bool × Byte)) : Prop where
  events : t.events = s.events ++ written s.cfg ws
  idle : t.fgpos = .idle
  result : t.result = none

/-- Where the `n` characters of a print land in DDRAM, and where the cursor ends (R201, R242). -/
def printInto (right : Bool) : List Byte → Cursor → Memory → Memory
  | [], _, m => m
  | b :: s, p, m => printInto right s (advance right p) (memWrite m (cursorAddr p) b)

/-- The cursor in one-line mode after `k` characters of a print that was asked for in `s`, where R228 gives any value:
after the first, the value drawn when character `k - 1` is latched. Six evaluations and that draw go to each character,
the latch being the fifth micro-step of its write (R181; logs 4, 5). -/
def strayCell (s : State) : Nat → Cursor
  | 0 => s.dev.cursor
  | j + 1 => { col := Config.freeCol (s.draws + 7 * j + 4), row := Config.freeRow (s.draws + 7 * j + 4) }

/-- Where the characters of a print land in DDRAM, the `k`-th and later ones at the cells given (R228). -/
def printAt (cell : Nat → Cursor) : Nat → List Byte → Memory → Memory
  | _, [], m => m
  | k, b :: s, m => printAt cell (k + 1) s (memWrite m (cursorAddr (cell k)) b)

/-- Where the characters land with CGRAM selected: five bits each, any value (I24) drawn at the stamp of its latch, at
the moving address (R231); `period` evaluations and draws go to each character. -/
def printGlyphs (up : Bool) (period : Nat) : Nat → List Byte → BitVec 6 → Memory → Memory
  | _, [], _, m => m
  | d, b :: s, a, m => printGlyphs up period (d + period) s (cgStep up a)
      (memWrite m (cgramAddr a) ((Config.freeGlyph d b).setWidth 8))

/-- The cursor after `n` advances (R242). -/
def advances (right : Bool) : Nat → Cursor → Cursor
  | 0, p => p
  | n + 1, p => advances right n (advance right p)

/-- The CGRAM address after `n` moves (R231). -/
def cgSteps (up : Bool) : Nat → BitVec 6 → BitVec 6
  | 0, a => a
  | n + 1, a => cgSteps up n (cgStep up a)

/-- The display shift after `n` data words (R243). -/
def shifts (sh right : Bool) : Nat → Fin 40 → Fin 40
  | 0, k => k
  | n + 1, k => shifts sh right n (if sh then shiftBy right k else k)

/-! ### Reset -/

/-- R58's table, but for what it gives any value: `slot` and the device (logs 9, 10), and for `lvl`, a draw. -/
structure AtReset (c : Config) (t : State) : Prop where
  cfg : t.cfg = c
  lut : t.lut = defaultLut c
  clken : t.regs.clken.getLsbD c.layout.clkKpdPort.val = false ∧ t.regs.clken.getLsbD c.layout.clkMux.val = false ∧
    t.regs.clken.getLsbD (clkLcdBit c).val = false
  mode : t.regs.mode.extractLsb' 0 16 = 0#16
  pull : t.regs.pull.extractLsb' 0 16 = 0#16
  odr : t.regs.odr.extractLsb' 0 8 = 0#8
  mux : c.Wired → ∀ l : Col, routed c.layout t.regs.mux l = false
  imr : t.regs.imr.extractLsb' 0 4 = 0#4
  rtsr : t.regs.rtsr.extractLsb' 0 4 = 0#4
  pr : t.regs.pr.extractLsb' 0 4 = 0#4
  irqen : ∀ l : Col, irqOn c.layout t.regs.irqen l = false
  lmode : ∀ p ∈ c.layout.lcdPins, pinField (lcdMode t) p.val = modeInput ∧ lcdDrives t p = false
  lodr : ∀ p ∈ c.layout.lcdPins, (lcdOut t).getLsbD p.val = false
  fgpos : t.fgpos = .idle
  isrpos : t.isrpos = none
  kpdInit : t.kpdInit = false
  lcdInit : t.lcdInit = false
  refused : t.refused = none
  faults : t.faults = []
  devBusy : t.devBusy = .long

/-! ### Frames: what stays -/

/-- Every register role but `PR` as before. -/
abbrev regsKept (s t : State) : Prop := { t.regs with pr := 0 } = { s.regs with pr := 0 }

/-- No pending bit is lost, and only the four line bits can be gained: what the edge detector may do at a micro-step's
end (R45, R162). -/
abbrev pendingKept (s t : State) : Prop :=
  s.regs.pr &&& t.regs.pr = s.regs.pr ∧ t.regs.pr >>> 4 = s.regs.pr >>> 4

/-- The display as before: the device, its scoreboard, the observed events, every byte of its memories, and the
directions of the lines that `MODE` has no field for (log 7). -/
abbrev displayKept (s t : State) : Prop :=
  t.highOut = s.highOut ∧
  t.dev = s.dev ∧ t.devBusy = s.devBusy ∧ t.anyLatch = s.anyLatch ∧ t.events = s.events ∧
  ∀ a, memRead t.vram a = memRead s.vram a

/-- The handler's position and locals as before (R280). -/
abbrev handlerKept (s t : State) : Prop :=
  t.isrpos = s.isrpos ∧ t.isrT = s.isrT ∧ t.isrS = s.isrS ∧ t.isrR = s.isrR

/-- The foreground's continuation as before (R276). -/
abbrev foregroundKept (s t : State) : Prop :=
  t.fgpos = s.fgpos ∧ t.fgT = s.fgT ∧ t.fgV = s.fgV ∧ t.result = s.result

/-- What no instruction changes: the configuration, the marks, the environment, the port and the turns laid down. -/
abbrev worldKept (s t : State) : Prop :=
  t.cfg = s.cfg ∧ t.refused = s.refused ∧ t.faults = s.faults ∧ t.keys = s.keys ∧ t.bouncing = s.bouncing ∧
  t.lcdPowered = s.lcdPowered ∧ t.port = s.port ∧ t.sched = s.sched

/-- The character table as before (R33). -/
abbrev tableKept (s t : State) : Prop := t.lut = s.lut ∧ t.lutInstalled = s.lutInstalled

/-- The initialization flags as before (R51). -/
abbrev flagsKept (s t : State) : Prop := t.kpdInit = s.kpdInit ∧ t.lcdInit = s.lcdInit

/-- The edge detector's cells as before (R53, R162). -/
abbrev detectorKept (s t : State) : Prop := t.regs.pr = s.regs.pr ∧ t.lvl = s.lvl ∧ t.spoiled = s.spoiled

/-! ### Invariants -/

/-- `slot ∈ 0..16` (R145). -/
abbrev SlotLegal (s : State) : Prop := s.slot.toNat ≤ 16

/-- The display's memories are in canonical form. -/
abbrev MemoryLegal (s : State) : Prop := s.vram.wf

/-- No latched word has `RW = 1`: the device is only ever written (R181, R312). -/
abbrev OnlyWrites (s : State) : Prop := ∀ w, Event.latch w ∈ s.events → w.getLsbD 8 = false

/-- No line is delivered before `KPD_INIT` enables it at K8, its micro-steps 15 and 16 (R300): the keypad is
initialized, or `KPD_INIT` has done K8 and stands at K9 or K10, or every line's `IRQEN` bit is 0; and the micro-steps
of `KPD_INIT` are numbered from 1 (R49). -/
abbrev UndeliveredBeforeInit (s : State) : Prop :=
  s.fgpos ≠ .inOp .kpdInit 0 ∧
  (s.kpdInit = true ∨ s.fgpos = .inOp .kpdInit 17 ∨ s.fgpos = .inOp .kpdInit 18 ∨
    ∀ c : Col, irqOn s.cfg.layout s.regs.irqen c = false)

/-- A handler stands between the mask S1 and the unmask S8: micro-steps 3 to 13 of its scan are to come (R158). -/
abbrev MaskedScan (p : IsrPos) : Prop := 3 ≤ p.k ∧ p.k ≤ 13

/-- A handler's micro-steps are numbered from 1 (R49), and the four lines are masked while it stands between S1 and S8
(R158). -/
abbrev ScanMasksTheLines (s : State) : Prop :=
  ∀ p, s.isrpos = some p → 1 ≤ p.k ∧ (MaskedScan p → s.regs.imr.extractLsb' 0 4 = 0#4)

end Sys2Proof.Machine
end

