-- ==== Sys2Proof/Certificates/Slice0/Obligations.lean ====
section
/-! DEFINITION. The statements about the machine, from the spec's numbered rules. -/

open Sys2Proof Sys2Proof.Machine

/-! ### Encoding and decoding -/

/-- Decoding an encoded well-formed instruction gives it back, and leaves the bytes after a command (R101, R103, R105,
R109, R112). -/
def Obligations.EncodingRoundTrips : Prop :=
  ∀ i : Instr, i.wellFormed = true →
    match encode i with
    | .hc bytes => ∀ rest, decodeHc (bytes ++ rest) = .ok (i, rest)
    | .irq c => decodeIrq c = i
    | .lb w => decodeBus w = .ok i

/-- An encoding that decodes whole is the encoding of what it decodes to, and that is well-formed: no two encodings
stand for one instruction, and no bit is dropped (R101, R103, R105, R109). -/
def Obligations.DecodingIsUnambiguous : Prop :=
  ∀ (code : Code) (i : Instr), decode code = .ok (i, []) → encode i = code ∧ i.wellFormed = true

/-- Opcodes `0x09`–`0x7F` and `0x89`–`0xFF` are read as reserved, and refused with `R_RESERVED_OPCODE`, whatever the
state (R109). -/
def Obligations.ReservedOpcodesAreRefused : Prop :=
  ∀ (op : Byte) (rest : List Byte) (s : State),
    (0x09 ≤ op.toNat ∧ op.toNat ≤ 0x7F →
      decodeHc (op :: rest) = .ok (.hcReservedLow op, rest) ∧
      exec (.hcReservedLow op) s = .refused (.reservedOpcode op s.pos)) ∧
    (0x89 ≤ op.toNat →
      decodeHc (op :: rest) = .ok (.hcReservedHigh op, rest) ∧
      exec (.hcReservedHigh op) s = .refused (.reservedOpcode op s.pos))

/-- A few encodings written out from the spec: R101 and R112's `lcd.cursor_set 3, 1` and `kpd.to_char -1`, `KPD_INIT`,
`lcd.print "12"`, column line 2, and the bus words `0x038`, `0x014`, `0x0C3`, `0x231` and a read. -/
def Obligations.SpecWordsDecode : Prop :=
  decode (.hc [0x83, 0x03, 0x01]) = .ok (.lcdCursorSet 3 1, []) ∧
  decode (.hc [0x07, 0xFF, 0xFF, 0xFF, 0xFF]) = .ok (.kpdToChar 0xFFFFFFFF, []) ∧
  decode (.hc [0x00]) = .ok (.kpdInit, []) ∧
  decode (.hc [0x86, 0x31, 0x32, 0x00]) = .ok (.lcdPrint [0x31, 0x32], []) ∧
  decode (.hc [0x09]) = .ok (.hcReservedLow 0x09, []) ∧
  decode (.irq 0b10) = .ok (.kpdIsrCol2, []) ∧
  decode (.lb 0x038) = .ok (.functionSet true true false 0, []) ∧
  decode (.lb 0x014) = .ok (.cursorDisplayShift false true 0, []) ∧
  decode (.lb 0x0C3) = .ok (.setDdramAddr 0x43, []) ∧
  decode (.lb 0x231) = .ok (.writeData 0x31, []) ∧
  decode (.lb 0x100) = .ok (.readBfAc 0, []) ∧
  decode (.lb 0x000) = .error .noBusClass

/-! ### The step -/

/-- With no turn laid down, no handler running and no line requesting, an idle foreground runs the instruction its
port's bytes decode to, and those bytes leave the port; with no whole command there it waits. That the port is a list
of bytes in R112's encoding, that a command's bytes leave it on acceptance, and that a command which is not whole
waits, are the model's choices (logs 26 and 34): the spec gives those bytes as a listing's notation. -/
def Obligations.StepRunsTheDecodedCommand : Prop :=
  ∀ s : State, alreadyStopped s = none → s.cfg.broken = none → s.sched = [] → FgIdle s → requesting s = false →
    (∀ i rest, decodeHc s.port = .ok (i, rest) → step s = exec i { s with port := rest }) ∧
    (∀ e, decodeHc s.port = .error e → step s = .next s.turnOver)

/-- Whose turn it is: a running handler goes on first; else an operation in progress, with no line requesting; and a
turn that is laid down is taken: a bounded one for the executing context, an interrupt event, a bus word, an
environment step, further command bytes. -/
def Obligations.StepTakesTheTurn : Prop :=
  ∀ s : State, alreadyStopped s = none → s.cfg.broken = none →
    (s.sched = [] → ∀ p, s.isrpos = some p → step s = exec (isrInstr p.col) s) ∧
    (s.sched = [] → s.isrpos = none → requesting s = false →
      ∀ i k, s.fgpos = .inOp i k → step s = exec i s) ∧
    (∀ rest n, s.sched = .run n :: rest →
      (∀ p, s.isrpos = some p → step s = exec (isrInstr p.col) { s with sched := rest, quantum := some n }) ∧
      (s.isrpos = none → ∀ i k, s.fgpos = .inOp i k → step s = exec i { s with sched := rest, quantum := some n }) ∧
      (FgIdle s → ∀ i r, decodeHc s.port = .ok (i, r) →
        step s = exec i { s with sched := rest, quantum := some n, port := r })) ∧
    (∀ rest c n, s.sched = .enter c n :: rest →
      step s = exec (isrInstr c) { s with sched := rest, quantum := some n }) ∧
    (∀ rest w i, s.sched = .busWord w :: rest → decodeBus w = .ok i → step s = exec i { s with sched := rest }) ∧
    (∀ rest e, s.sched = .env e :: rest → step s = envStep e { s with sched := rest }) ∧
    (∀ rest bytes, s.sched = .command bytes :: rest →
      step s = .next { s with sched := rest, port := s.port ++ bytes })

/-- A refusal changes nothing but the mark; a fault leaves a state with its reason in `faults`; and a machine so marked
takes no further step: it answers the mark again (R260, R261). For a word latched by a device both busy and in 4-bit
mode `faults` has both reasons; that the outcome, and the mark answered, is then `F_LCD_MODE` is the model's choice
(log 13). That this holds of a reset turn too, where R300 clears the marks of a machine that is
reset, is the model's reading (log 31). -/
def Obligations.StopsAreFinal : Prop :=
  ∀ s : State, alreadyStopped s = none →
    (∀ r, step s = .refused r →
      stopped s (step s) = { s with refused := some r } ∧ step (stopped s (step s)) = .refused r) ∧
    (∀ f, step s = .fault f →
      stopped s (step s) = f.left ∧ step f.left = .fault f ∧
      (f.left.faults = [f.record] ∨
        ∃ w pos, f.record = .lcdMode w pos ∧ f.left.faults = [.lcdMode w pos, .lcdBusy w pos]))

/-- A configuration is broken exactly where R10 or R85 says so, and then every step is refused with `R_BAD_CONFIG`,
the parameter, and the context and position it is raised at (R263). The parameter named is one that is broken; of
several, `T_SHORT` before `T_LONG` before `REG_ADDR`, by the model's choice (log 41). Durations are whole microseconds
by the model's choice (log 36). -/
def Obligations.BrokenConfigurationsAreRefused : Prop :=
  (∀ c : Config,
    let short := 10 ≤ c.tShort.micros ∧ c.tShort.micros < 100
    let long := 1000 < c.tLong.micros
    let addr := ∀ a ∈ c.regAddr.toList, a.value % 4 = 0
    (c.broken = none ↔ short ∧ long ∧ addr) ∧
    (c.broken = some .tShort ↔ ¬ short) ∧
    (c.broken = some .tLong ↔ short ∧ ¬ long) ∧
    (c.broken = some .regAddr ↔ short ∧ long ∧ ¬ addr)) ∧
  (∀ (s : State) (p : Param), alreadyStopped s = none → s.cfg.broken = some p →
    step s = .refused (.badConfig p { fgpos := s.fgpos, isrpos := s.isrpos }))

/-- With no handler running and some line requesting, the default scheduler enters a line that requests (R275, R277). -/
def Obligations.PendingLineIsEntered : Prop :=
  ∀ s : State, alreadyStopped s = none → s.cfg.broken = none → s.sched = [] → s.isrpos = none →
    requesting s = true → ∃ c, req s c = true ∧ step s = exec (isrInstr c) s

/-! ### Reset and the environment -/

/-- After reset, on every configuration, each piece of state has the value R58's table states for it; `slot`, `lvl` and
the device are left out, to which R58 gives any value (logs 9 to 11 name the model's). -/
def Obligations.ResetState : Prop :=
  ∀ c : Config, AtReset c (State.resetWith c) ∧ (State.resetWith c).lut[0] = 0

/-- Reset asserted in any state drops the operation and any handler in progress and gives the whole of R58's table
again (`AtReset`: every register, the table, the positions, the flags, the marks, the scoreboard), with `lvl` the
lines' drawn levels, while the key matrix and `bouncing` stay as they stand (R300). That the observations, the port
and the turns stay is the model's choice (log 14). -/
def Obligations.ResetRestartsTheBlock : Prop :=
  ∀ s : State, ∃ t, envStep .reset s = .next t ∧ AtReset s.cfg t ∧ t.keys = s.keys ∧ t.bouncing = s.bouncing ∧
    t.lcdPowered = false ∧ t.anyLatch = false ∧
    (s.cfg.Wired → ∀ c : Col, t.lvl.get c = Config.freeBit s.draws (8 + c.val)) ∧
    t.events = s.events ∧ t.port = s.port ∧ t.sched = s.sched

/-- The environment's steps (R57, R163, R304, R34), each ended by the re-evaluation of R160: a key step closes or opens
that key and no other; a bounce step sets `bouncing`, and while it holds an input pin's level is a draw; a first
`LcdPowered` is remembered and frees the device where no word has been latched since reset, and changes nothing else; a
second one changes nothing (R304 has at most one: the clause is the model's choice, log 20); a change of an installed
table's storage is refused with `R_LUT_ALIASED`, and with none installed there is no such storage (log 21). -/
def Obligations.EnvironmentSteps : Prop :=
  ∀ s : State,
    (∀ r c closed, envStep (.key r c closed) s = .next { s with keys := setKey s.keys r c closed }.settle ∧
      ∀ (r' : Row) (c' : Col), keyClosed (setKey s.keys r c closed) r' c' =
        if r' = r ∧ c' = c then closed else keyClosed s.keys r' c') ∧
    (∀ b, envStep (.bounce b) s = .next { s with bouncing := b }.settle) ∧
    (s.bouncing = true → ∀ l : Line, pinField s.regs.mode (pinOf s.cfg l).val = modeInput →
      level s l = Config.freeBit s.draws (pinOf s.cfg l).val) ∧
    (s.lcdPowered = false → envStep .lcdPowered s
      = .next { s with lcdPowered := true, devBusy := if s.anyLatch then s.devBusy else .free }.settle) ∧
    (s.lcdPowered = true → envStep .lcdPowered s = .next s.settle) ∧
    (s.lutInstalled = true → envStep .tableChanged s = .refused (.lutAliased s.pos)) ∧
    (s.lutInstalled = false → envStep .tableChanged s = .next s.settle)

/-! ### Registers, edges and requests -/

/-- R45: `PR` is read as it stands, and the read changes nothing; a write performs `PR <- PR & ~w` and changes nothing
else, so that a written 0 keeps its bit and no write sets one; and no micro-step sets a pending bit at all, before the
edge detector's evaluation that ends it. -/
def Obligations.PendingBitsClearOnWriteOne : Prop :=
  ∀ (s : State) (w : Word),
    regRead .pr s = .ok s.regs.pr ∧
    regWrite .pr w s = .next { s with regs := { s.regs with pr := s.regs.pr &&& ~~~w } } ∧
    (∀ i : Nat, w.getLsbD i = false → (s.regs.pr &&& ~~~w).getLsbD i = s.regs.pr.getLsbD i) ∧
    (∀ (x : Ctx) (m : Micro) (t : State), micro x m s = .next t →
      ∀ i : Nat, s.regs.pr.getLsbD i = false → t.regs.pr.getLsbD i = false)

/-- `KPD_PORT_CLK` gates `MODE`, `PULL`, `ODR` and `IDR`, `MUX_CLK` gates `MUX`, `LCD_PORT_CLK` (which is
`KPD_PORT_CLK` where the port is shared) gates `LMODE` and `LODR`, nothing gates the rest; an access to a gated
register faults `F_CLOCK_GATED`, and leaves nothing changed but `faults` (R37, R81, R82, R261). In a shared port `LMODE`
is `MODE` and `LODR` is `ODR`, each one 32-bit word: what is written to one is read from the other (R36, R81, R314).
Where no fields overlap (`Config.Wired`) the LCD's pins there are none of the keypad's eight, the keypad's updates keep
`MODE[31:16]`, and `LCD_INIT`'s keeps `MODE[15:0]` (R48, R314). After I2 every line is an output (R48); that of the
lines on pins 16 to 31, for which a 32-bit `MODE` has no field, this is held beside the register is the model's choice
(log 7). -/
def Obligations.GatedAccessFaults : Prop :=
  ∀ s : State,
    (∀ r ∈ [Role.mode, .pull, .odr, .idr], clocked s r = s.regs.clken.getLsbD s.cfg.layout.clkKpdPort.val) ∧
    clocked s .mux = s.regs.clken.getLsbD s.cfg.layout.clkMux.val ∧
    (∀ r ∈ [Role.lmode, .lodr],
      clocked s r = if s.cfg.lcdShares then s.regs.clken.getLsbD s.cfg.layout.clkKpdPort.val
        else s.regs.clken.getLsbD s.cfg.layout.clkLcdPort.val) ∧
    (∀ r ∈ [Role.clken, .imr, .rtsr, .pr, .irqen], clocked s r = true) ∧
    (∀ r v, clocked s r = false →
      let left := { s with faults := s.faults ++ [.clockGated r s.pos] }
      regRead r s = .error (.clockGated r s.pos left) ∧ regWrite r v s = .fault (.clockGated r s.pos left)) ∧
    (s.cfg.lcdShares = true → s.regs.clken.getLsbD s.cfg.layout.clkKpdPort.val = true →
      regRead .mode s = .ok s.regs.mode ∧ regRead .lmode s = regRead .mode s ∧
      regRead .odr s = .ok s.regs.odr ∧ regRead .lodr s = regRead .odr s ∧
      ∀ v, regWrite .mode v s = .next { s with regs := { s.regs with mode := v } } ∧
        regWrite .lmode v s = regWrite .mode v s ∧
        regWrite .odr v s = .next { s with regs := { s.regs with odr := v } } ∧
        regWrite .lodr v s = regWrite .odr v s) ∧
    (s.cfg.Wired → s.cfg.lcdShares = true →
      (∀ p ∈ s.cfg.layout.lcdPins, ∀ l : Line, p.val ≠ (pinOf s.cfg l).val) ∧
      ∀ w : Word, (Upd.modeIdle.apply s.cfg w).extractLsb' 16 16 = w.extractLsb' 16 16 ∧
        (Upd.modeScan.apply s.cfg w).extractLsb' 16 16 = w.extractLsb' 16 16 ∧
        (Upd.lcdOutput.apply s.cfg w).extractLsb' 0 16 = w.extractLsb' 0 16) ∧
    (∀ x t, micro x (.write .lmode .lcdOutput) s = .next t → ∀ p ∈ t.cfg.layout.lcdPins, lcdDrives t p = true)

/-- A read of `IDR` has in bit p the level of the keypad line on pin p, and 0 in bits 16..31, and a write of it is
refused (R41, R81, R82). -/
def Obligations.InputDataShowsThePins : Prop :=
  ∀ s : State, s.cfg.Wired → clocked s .idr = true →
    regRead .idr s = .ok (idrWord s) ∧
    (∀ l : Line, (idrWord s).getLsbD (pinOf s.cfg l).val = level s l) ∧
    (∀ i, 16 ≤ i → (idrWord s).getLsbD i = false) ∧
    (∀ v, regWrite .idr v s = .refused (.writeReadOnly .idr s.pos))

/-- The edge detector of R162: a pending bit is set by a rising edge of its line where `RTSR` selects it and the line
is unmasked or P19 holds, no pending bit is lost, bits above the four lines stay, and the level seen is remembered. The
level is the column pin's where the line is routed to the keypad port, and a draw where it is not (R42); that such a
drawn level can rise and latch, where R271 says that a pending bit needs the line routed, is the model's choice
(log 42). -/
def Obligations.EdgeDetectorLatchesRisingEdges : Prop :=
  ∀ (s : State) (c : Col),
    (s.settle.regs.pr.getLsbD c.val =
      (s.regs.pr.getLsbD c.val ||
        (!s.lvl.get c && lineLevel s.spoil c && s.regs.rtsr.getLsbD c.val &&
          (s.regs.imr.getLsbD c.val || s.cfg.prLatchWhileMasked)))) ∧
    s.settle.lvl.get c = lineLevel s.spoil c ∧
    (routed s.cfg.layout s.regs.mux c = true → lineLevel s.spoil c = level s.spoil (colLine c)) ∧
    (routed s.cfg.layout s.regs.mux c = false → lineLevel s.spoil c = Config.freeBit s.draws (8 + c.val)) ∧
    pendingKept s s.settle

/-- R161, under every binding of the pins: in the Idle/Armed port column c reads 1 iff some key of it is closed; in the
swapped port of a scan row r reads 1 iff some key of it is closed; and a single closed key (r, c) gives the sample
`1 << r`. -/
def Obligations.HeldKeysSetTheLevels : Prop :=
  (∀ s : State, s.cfg.Wired → s.bouncing = false → s.spoiled = 0 →
    s.regs.pull.extractLsb' 0 16 = 0xAAAA#16 → s.regs.odr.extractLsb' 0 8 = 0xFF#8 →
    (s.regs.mode.extractLsb' 0 16 = idleMode s.cfg → ∀ c : Col, level s (colLine c) = columnHeld s.keys c) ∧
    (s.regs.mode.extractLsb' 0 16 = scanMode s.cfg → ∀ r : Row, level s (rowLine r) = rowHeld s.keys r)) ∧
  (∀ (r : Row) (c : Col), rowsHeld (setKey 0 r c true) = maskBit 4 true r.val)

/-- `Enter(c)` (R272): with no handler running and `req[c]`, the event puts the handler at S1 and, before its first
micro-step, changes no register, no cell and no foreground continuation. Handlers do not nest and the foreground takes
no step under one (R274): without `req[c]`, or under another running handler, the event is not taken, and under a
running handler a keypad command is not taken; that what is not taken changes nothing is the model's choice (log 22).
An LCD operation asked for while a handler runs is refused with `R_LCD_FROM_ISR` (R202; that it counts as asked for in
the handler's context, and comes before R262's check, is the model's choice, logs 28 and 40). -/
def Obligations.HandlerEntry : Prop :=
  ∀ (s : State) (c : Col),
    (s.isrpos = none → req s c = true → s.quantum = some 0 →
      exec (isrInstr c) s = .next { s with quantum := none, isrpos := some { col := c, k := 1 } }) ∧
    (s.isrpos = none → req s c = false → exec (isrInstr c) s = .next { s with quantum := none }) ∧
    (∀ p, s.isrpos = some p → p.col ≠ c → exec (isrInstr c) s = .next { s with quantum := none }) ∧
    (∀ p, s.isrpos = some p →
      ∀ i : Instr, i.wellFormed = true → i.format = .hc → i.opcode.getLsbD 7 = false → (∀ op, i ≠ .hcReservedLow op) →
        exec i s = .next { s with quantum := none }) ∧
    (∀ p, s.isrpos = some p → ∀ i : Instr, i.wellFormed = true → i.format = .hc → i.opcode.getLsbD 7 = true →
      (∀ op, i ≠ .hcReservedHigh op) → exec i s = .refused (.lcdFromIsr i.opcode s.pos))

/-! ### Keypad commands -/

/-- `KPD_INIT` (R130) completes wherever it is accepted and not pre-empted, in a bounded turn or, as after reset, in
the default scheduler's: the port is armed, both clock bits are on, the slot is 0, the keypad initialized, and it
loses no pending bit. Every bit of the registers that the block does not own is preserved (R47). -/
def Obligations.KpdInitArmsThePort : Prop :=
  ∀ s : State, s.cfg.Wired → FgIdle s → InitRuns s →
    ∃ t, exec .kpdInit s = .next t ∧
      PortArmed t ∧ t.slot = 0 ∧ t.kpdInit = true ∧ t.fgpos = .idle ∧ t.result = none ∧ pendingKept s t ∧
      t.regs.clken = (s.regs.clken ||| maskBit 32 true s.cfg.layout.clkKpdPort.val
        ||| maskBit 32 true s.cfg.layout.clkMux.val) ∧
      t.regs.mode.extractLsb' 16 16 = s.regs.mode.extractLsb' 16 16 ∧
      t.regs.pull.extractLsb' 16 16 = s.regs.pull.extractLsb' 16 16 ∧
      t.regs.odr.extractLsb' 8 24 = s.regs.odr.extractLsb' 8 24 ∧
      t.regs.rtsr.extractLsb' 4 28 = s.regs.rtsr.extractLsb' 4 28 ∧
      t.regs.imr.extractLsb' 4 28 = s.regs.imr.extractLsb' 4 28 ∧
      t.regs.mux &&& ~~~(muxBits s.cfg.layout) = s.regs.mux &&& ~~~(muxBits s.cfg.layout) ∧
      t.regs.irqen = s.regs.irqen ||| irqBits s.cfg.layout ∧
      t.regs.lmode = s.regs.lmode ∧ t.regs.lodr = s.regs.lodr

/-- `KPD_CLEAR` (R131), `KPD_GET` (R132), `KPD_TO_CHAR` (R146) and `KPD_SET_CHAR_LUT` (R147) complete in one
micro-step, and this is the state they leave: the cell or the result written, and the re-evaluation of R160. -/
def Obligations.OneMicroStepCommands : Prop :=
  ∀ s : State, FgIdle s → s.kpdInit = true → mayRun s.quantum s = true →
    exec .kpdClear s = .next { s.turnOver with slot := 0, result := none }.settle ∧
    exec .kpdGet s = .next { s.turnOver with fgV := s.slot, result := some s.slot }.settle ∧
    (∀ key, exec (.kpdToChar key) s = .next { s.turnOver with result := some (toChar s.lut key) }.settle) ∧
    (∀ table, exec (.kpdSetCharLut table) s
      = .next { s.turnOver with lut := table, lutInstalled := true, result := none }.settle)

/-- `KPD_GET_CHAR` (R135) completes with the character of the slot's key, `0x00` for an empty slot, and leaves slot
and table as they are. -/
def Obligations.GetCharReturnsTheSlotsCharacter : Prop :=
  ∀ s : State, FgIdle s → s.kpdInit = true → RunsFor 2 s →
    ∃ t, exec .kpdGetChar s = .next t ∧ t.result = some (toChar s.lut (keyOfByte s.slot)) ∧
      (s.slot = 0 → t.result = some 0) ∧ t.slot = s.slot ∧ t.lut = s.lut ∧ t.fgpos = .idle

/-- `KPD_WAIT` and the waits built on it (R133, R134, R136) begin by clearing the slot: a key recorded before is gone,
and with no handler running in between the operation stands at its poll, with no result. -/
def Obligations.WaitsClearTheSlotAndPoll : Prop :=
  ∀ s : State, FgIdle s → s.kpdInit = true → RunsFor 2 s →
    ∀ i ∈ [Instr.kpdWait, .kpdGetWait, .kpdGetCharWait],
      ∃ t, exec i s = .next t ∧ t.slot = 0 ∧ t.fgpos = .inOp i 2 ∧ t.result = none

/-- A wait at its poll (R133, R134, R136): while the slot is 0 it stays there; once a key is recorded `KPD_WAIT`
returns with no result, `KPD_GET_WAIT` with the key, `KPD_GET_CHAR_WAIT` with its character. -/
def Obligations.WaitsReturnARecordedKey : Prop :=
  ∀ s : State, s.kpdInit = true →
    (∀ i ∈ [Instr.kpdWait, .kpdGetWait, .kpdGetCharWait], FgAt i 2 s → s.slot = 0 → mayRun s.quantum s = true →
      ∃ t, exec i s = .next t ∧ t.fgpos = .inOp i 2 ∧ t.slot = 0) ∧
    (FgAt .kpdWait 2 s → s.slot ≠ 0 → RunsFor 1 s →
      ∃ t, exec .kpdWait s = .next t ∧ t.fgpos = .idle ∧ t.slot = s.slot ∧ t.result = s.result) ∧
    (FgAt .kpdGetWait 2 s → s.slot ≠ 0 → RunsFor 2 s →
      ∃ t, exec .kpdGetWait s = .next t ∧ t.fgpos = .idle ∧ t.slot = s.slot ∧ t.result = some s.slot) ∧
    (FgAt .kpdGetCharWait 2 s → s.slot ≠ 0 → RunsFor 3 s →
      ∃ t, exec .kpdGetCharWait s = .next t ∧ t.fgpos = .idle ∧ t.slot = s.slot ∧
        t.result = some (toChar s.lut (keyOfByte s.slot)))

/-- `ToChar(key)` (R146): the table's entry for 1 ≤ key ≤ 16, and `0x00` for 0, for every larger and for every
negative `Int32`, whatever the table holds; on the slot's byte it agrees. -/
def Obligations.ToCharReadsTheTable : Prop :=
  ∀ lut : Vector Byte 17,
    (∀ n : Fin 17, 1 ≤ n.val → toChar lut (BitVec.ofNat 32 n.val) = lut[n]) ∧
    (∀ key : Word, key.toInt ≤ 0 ∨ 16 < key.toInt → toChar lut key = 0) ∧
    (∀ v : Byte, (keyOfByte v).toInt = v.toNat)

/-- A keypad command other than `KPD_INIT` before `kpd_init`, and an LCD command other than `LCD_INIT` before
`lcd_init`, is refused with `R_NOT_INITIALIZED` and its opcode, before any operand check (R262, R275). -/
def Obligations.CommandsNeedTheirInit : Prop :=
  ∀ (s : State) (i : Instr), FgIdle s → i.format = .hc → i ≠ .kpdInit → i ≠ .lcdInit →
    (∀ op, i ≠ .hcReservedLow op) → (∀ op, i ≠ .hcReservedHigh op) →
    (i.opcode.getLsbD 7 = false → s.kpdInit = false → exec i s = .refused (.notInitialized i.opcode s.pos)) ∧
    (i.opcode.getLsbD 7 = true → s.lcdInit = false → exec i s = .refused (.notInitialized i.opcode s.pos))

/-- R140, R141: the key code of row r and column c is `4r + c + 1`, between 1 and 16, with inverse
`r = (key − 1) div 4`, `c = (key − 1) mod 4`, and every code 1..16 is one. R35: the one-hot samples give rows 0 to 3,
the empty sample what P18 says, every other sample no match. -/
def Obligations.KeyCodesAndRowTable : Prop :=
  (∀ (r : Row) (c : Col), (keyCode r c).toNat = r.val * 4 + c.val + 1 ∧
    1 ≤ (keyCode r c).toNat ∧ (keyCode r c).toNat ≤ 16 ∧
    r.val = ((keyCode r c).toNat - 1) / 4 ∧ c.val = ((keyCode r c).toNat - 1) % 4) ∧
  (∀ k : Byte, 1 ≤ k.toNat → k.toNat ≤ 16 → ∃ (r : Row) (c : Col), keyCode r c = k) ∧
  (∀ c : Config,
    (∀ r : Row, rowlut c (maskBit 4 true r.val) = .row r) ∧
    rowlut c 0 = (match c.rowlutIndex0 with | .noMatch => .noMatch | .row0 => .row 0) ∧
    (∀ s : BitVec 4, s ≠ 0 → (∀ r : Row, s ≠ maskBit 4 true r.val) → rowlut c s = .noMatch))

/-! ### The column handlers -/

/-- A scan completes wherever it is entered with the port's clock on (R150 to R159): it returns, the port is back in
its Idle/Armed directions and all four lines are unmasked, bits the block does not own are preserved, no other line's
pending bit is lost, and the slot holds what it held or the key of the running column and some row. -/
def Obligations.ScanCompletes : Prop :=
  ∀ (s : State) (c : Col), s.isrpos = none → req s c = true → clocked s .mode = true → ScanRuns s →
    ∃ t, exec (isrInstr c) s = .next t ∧ t.isrpos = none ∧
      t.regs.mode.extractLsb' 0 16 = idleMode s.cfg ∧ t.regs.imr.extractLsb' 0 4 = 0xF#4 ∧
      t.regs.mode.extractLsb' 16 16 = s.regs.mode.extractLsb' 16 16 ∧
      t.regs.imr.extractLsb' 4 28 = s.regs.imr.extractLsb' 4 28 ∧
      (∀ i, i ≠ c.val → s.regs.pr.getLsbD i = true → t.regs.pr.getLsbD i = true) ∧
      (t.slot = s.slot ∨ ∃ r : Row, t.slot = keyCode r c) ∧
      t.events = s.events ++ [.delay s.cfg.tDebounce] ∧ foregroundKept s t

/-- The KPD phase (R50, R167). `Uninit` lasts until K10 and ends there, in `IdleArmed`: it stands through any part of
`KPD_INIT`'s first 17 micro-steps, and the 18th ends it. A handler that is entered is `Scanning(c)` from the end of S1,
its second micro-step, to S9: after fewer micro-steps of its turn the phase is still `IdleArmed`, after 2 to 12 it is
`Scanning(c)`, and after the whole scan `IdleArmed` again; and a scan that stands in between ends there. That `k`
counts micro-steps is the model's reading (log 12). -/
def Obligations.PhaseFollowsTheScan : Prop :=
  (∀ s : State, s.kpdInit = false → phase s = .uninit) ∧
  (∀ (s : State) (n : Nat), FgIdle s → s.kpdInit = false → s.quantum = some n → n < 18 →
    ∃ t, exec .kpdInit s = .next t ∧ phase t = .uninit) ∧
  (∀ s : State, FgAt .kpdInit 18 s → s.kpdInit = false → (∃ m, s.quantum = some m ∧ 1 ≤ m) →
    ∃ t, exec .kpdInit s = .next t ∧ phase t = .idleArmed) ∧
  (∀ (s : State) (c : Col) (n : Nat), s.kpdInit = true → s.isrpos = none → req s c = true → clocked s .mode = true →
    s.quantum = some n →
    phase s = .idleArmed ∧ ∃ t, exec (isrInstr c) s = .next t ∧
      (n < 2 → phase t = .idleArmed) ∧ (2 ≤ n → n ≤ 12 → phase t = .scanning c) ∧ (14 ≤ n → phase t = .idleArmed)) ∧
  (∀ (s : State) (c : Col) (k : Nat), s.kpdInit = true → s.isrpos = some { col := c, k := k } → 3 ≤ k →
    clocked s .mode = true → ScanRuns s →
    phase s = .scanning c ∧ ∃ t, exec (isrInstr c) s = .next t ∧ phase t = .idleArmed)

/-- The headline of the keypad: in the armed and calm port, with edges not latched while masked (P19 false), the scan
of a requesting column samples exactly the rows that hold a closed key, records `4r + c + 1` where exactly one does,
and writes nothing where the row table has no match; it clears its own pending bit, leaves the other lines' as they
were and raises no new edge, so a held key is reported once (R150, R151, R156, R161, R165, R168). -/
def Obligations.HeldKeyIsRecordedOnce : Prop :=
  ∀ (s : State) (c : Col), s.cfg.Wired → PortArmed s → Calm s → s.cfg.prLatchWhileMasked = false →
    s.isrpos = none → req s c = true → ScanRuns s →
    ∃ t, exec (isrInstr c) s = .next t ∧ t.isrpos = none ∧ PortArmed t ∧ Calm t ∧
      t.slot = (match rowlut s.cfg (rowsHeld s.keys) with
        | .row r => keyCode r c
        | .noMatch => s.slot) ∧
      t.regs.pr = s.regs.pr &&& ~~~(maskBit 32 true c.val)

/-- Steps S5 to S9 from any sample (R151, R166): the row table decides the record, and with no match there is no write
at all; whatever it decides, the port is restored and the lines unmasked. -/
def Obligations.SampleDecidesTheRecord : Prop :=
  ∀ (s : State) (c : Col), s.isrpos = some { col := c, k := 7 } → clocked s .mode = true → ScanRuns s →
    ∃ t, exec (isrInstr c) s = .next t ∧ t.isrpos = none ∧
      t.slot = (match rowlut s.cfg s.isrS with
        | .row r => keyCode r c
        | .noMatch => s.slot) ∧
      t.regs.mode.extractLsb' 0 16 = idleMode s.cfg ∧ t.regs.imr.extractLsb' 0 4 = 0xF#4

/-- The frame of the four handlers (R149, R276): `MODE`, `IMR`, `PR` and `slot` apart, every register, the table, the
flags, the display and every byte of its memories, the foreground's continuation and the rest of the machine are as
before; nothing is latched on the LCD bus. `MODE[31:16]`, where the LCD's fields are in a shared port (R314; logs 7
and 12), is as before too, since a scan writes back what it read, unless the scan goes on here at the write of S2 or S6
(in a state that no run reaches it may have read otherwise). -/
def Obligations.HandlersTouchOnlyTheirCells : Prop :=
  ∀ (s t : State) (c : Col), exec (isrInstr c) s = .next t →
    t.regs.clken = s.regs.clken ∧ t.regs.pull = s.regs.pull ∧ t.regs.odr = s.regs.odr ∧
    t.regs.mux = s.regs.mux ∧ t.regs.rtsr = s.regs.rtsr ∧ t.regs.irqen = s.regs.irqen ∧
    t.regs.lmode = s.regs.lmode ∧ t.regs.lodr = s.regs.lodr ∧ t.highOut = s.highOut ∧
    ((∀ p, s.isrpos = some p → p.k ≠ 4 ∧ p.k ≠ 10) →
      t.regs.mode.extractLsb' 16 16 = s.regs.mode.extractLsb' 16 16) ∧
    t.regs.pr >>> 4 = s.regs.pr >>> 4 ∧
    tableKept s t ∧ flagsKept s t ∧ foregroundKept s t ∧ worldKept s t ∧
    t.dev = s.dev ∧ t.devBusy = s.devBusy ∧ t.anyLatch = s.anyLatch ∧
    (∀ a, memRead t.vram a = memRead s.vram a) ∧
    (∀ w, Event.latch w ∈ t.events → Event.latch w ∈ s.events)

/-- The frame of the keypad commands but `KPD_INIT`: registers are as before but for pending bits that the edge
detector may set at the end of a micro-step (R162); the display with every byte of its memories, the handler, the
flags and the rest are as before; the slot changes only to 0, by a clear or a wait; the table only by
`KPD_SET_CHAR_LUT`. `KPD_INIT` writes the keypad's registers, the slot and `kpd_init`: the LCD's own registers, and all
the rest, are as before; and `MODE[31:16]` and `ODR[31:8]`, where the LCD's bits are in a shared port (R314; log 7), are
written back as read by K2 and K4, unless the operation goes on here at that write. -/
def Obligations.KeypadCommandFrames : Prop :=
  (∀ (s t : State) (i : Instr), i.format = .hc → i.opcode.getLsbD 7 = false → i ≠ .kpdInit → exec i s = .next t →
    regsKept s t ∧ pendingKept s t ∧ displayKept s t ∧ handlerKept s t ∧ flagsKept s t ∧ worldKept s t ∧
    ((∀ table, i ≠ .kpdSetCharLut table) → tableKept s t) ∧
    (i ∈ [Instr.kpdClear, .kpdWait, .kpdGetWait, .kpdGetCharWait] → t.slot = s.slot ∨ t.slot = 0) ∧
    (i ∉ [Instr.kpdClear, .kpdWait, .kpdGetWait, .kpdGetCharWait] → t.slot = s.slot)) ∧
  (∀ s t : State, exec .kpdInit s = .next t →
    displayKept s t ∧ tableKept s t ∧ handlerKept s t ∧ worldKept s t ∧ t.lcdInit = s.lcdInit ∧
    pendingKept s t ∧ (t.slot = s.slot ∨ t.slot = 0) ∧
    t.regs.lmode = s.regs.lmode ∧ t.regs.lodr = s.regs.lodr ∧
    (s.fgpos ≠ .inOp .kpdInit 4 → t.regs.mode.extractLsb' 16 16 = s.regs.mode.extractLsb' 16 16) ∧
    (s.fgpos ≠ .inOp .kpdInit 8 → t.regs.odr.extractLsb' 8 24 = s.regs.odr.extractLsb' 8 24))

/-! ### LCD commands -/

/-- `LCD_CLEAR` (R191) and `LCD_HOME` (R192) complete. Clear: the word `0x001` and the long delay, DDRAM all spaces
and CGRAM as before, no shift, `ID = 1`, the cursor home in two-line mode. Home: the word `0x002` and the long delay,
every byte of memory as before, no shift, the cursor home in two-line mode. Both leave the lines as W5 leaves them and
the device free if the delay covers it. -/
def Obligations.LcdClearAndHomeComplete : Prop :=
  ∀ s : State, s.cfg.Wired → FgIdle s → s.lcdInit = true → LcdCan s → RunsFor 6 s →
    (∃ t, exec .lcdClear s = .next t ∧ Wrote s t [(false, 0x01)] ∧ LinesAfter false 0x01 s t ∧
      t.devBusy = busyAfter s.cfg .long s.cfg.tLong.micros ∧
      (∀ a, memRead t.vram a = if a < 0x100 then 0x20 else memRead s.vram a) ∧
      t.dev.space = .ddram ∧ t.dev.shift = 0 ∧ t.dev.id = true ∧
      (s.dev.n = true → t.dev.cursor = { col := 0, row := 0 })) ∧
    (∃ t, exec .lcdHome s = .next t ∧ Wrote s t [(false, 0x02)] ∧ LinesAfter false 0x02 s t ∧
      t.devBusy = busyAfter s.cfg .long s.cfg.tLong.micros ∧
      (∀ a, memRead t.vram a = memRead s.vram a) ∧
      t.dev.space = .ddram ∧ t.dev.shift = 0 ∧
      (s.dev.n = true → t.dev.cursor = { col := 0, row := 0 }))

/-- `LCD_CURSOR_SHOW` (R193) and `LCD_CURSOR_HIDE` (R194) complete: the words `0x00F` and `0x00D`, each with the short
delay; display and blink on, and only the `C` flag differs between them; memory as before. -/
def Obligations.LcdCursorShowAndHideComplete : Prop :=
  ∀ s : State, s.cfg.Wired → FgIdle s → s.lcdInit = true → LcdCan s → RunsFor 6 s →
    (∃ t, exec .lcdCursorShow s = .next t ∧ Wrote s t [(false, 0x0F)] ∧ LinesAfter false 0x0F s t ∧
      t.devBusy = busyAfter s.cfg .short s.cfg.tShort.micros ∧ (∀ a, memRead t.vram a = memRead s.vram a) ∧
      t.dev.d = true ∧ t.dev.c = true ∧ t.dev.b = true ∧ (s.dev.n = true → t.dev.cursor = s.dev.cursor)) ∧
    (∃ t, exec .lcdCursorHide s = .next t ∧ Wrote s t [(false, 0x0D)] ∧ LinesAfter false 0x0D s t ∧
      t.devBusy = busyAfter s.cfg .short s.cfg.tShort.micros ∧ (∀ a, memRead t.vram a = memRead s.vram a) ∧
      t.dev.d = true ∧ t.dev.c = false ∧ t.dev.b = true ∧ (s.dev.n = true → t.dev.cursor = s.dev.cursor))

/-- `LCD_INIT` (R189) completes wherever the device is free, in 8-bit mode, and covered by the delays: the bus trace
is exactly `0x038, 0x038, 0x00F, 0x001, 0x006` with the delays short, short, short, long, short; the lines are
outputs, every bit of `CLKEN`, `LMODE` and `LODR` that is no LCD field is preserved (R47); and the device state is
R240's, with CGRAM as before. Initialized or not makes no difference (R190). -/
def Obligations.LcdInitHandshake : Prop :=
  ∀ s : State, s.cfg.Wired → FgIdle s → DeviceTakes s → DelaysCover s.cfg → RunsFor 35 s →
    ∃ t, exec .lcdInit s = .next t ∧
      Wrote s t [(false, 0x38), (false, 0x38), (false, 0x0F), (false, 0x01), (false, 0x06)] ∧
      t.events = s.events ++
        [.latch 0x038, .delay s.cfg.tShort.micros, .latch 0x038, .delay s.cfg.tShort.micros,
          .latch 0x00F, .delay s.cfg.tShort.micros, .latch 0x001, .delay s.cfg.tLong.micros,
          .latch 0x006, .delay s.cfg.tShort.micros] ∧
      t.lcdInit = true ∧ t.devBusy = .free ∧ LcdCan t ∧ LinesAfter false 0x06 s t ∧
      t.regs.clken = s.regs.clken ||| maskBit 32 true (clkLcdBit s.cfg).val ∧
      (∀ n : Nat, (∀ p ∈ s.cfg.layout.lcdPins, n ≠ 2 * p.val ∧ n ≠ 2 * p.val + 1) →
        (lcdMode t).getLsbD n = (lcdMode s).getLsbD n) ∧
      t.dev.dl = true ∧ t.dev.n = true ∧ t.dev.f = false ∧ t.dev.d = true ∧ t.dev.c = true ∧ t.dev.b = true ∧
      t.dev.id = true ∧ t.dev.sh = false ∧ t.dev.space = .ddram ∧ t.dev.shift = 0 ∧
      t.dev.cursor = { col := 0, row := 0 } ∧
      (∀ a, memRead t.vram a = if a < 0x100 then 0x20 else memRead s.vram a)

/-- `LCD_INIT` while the device is still powering up (or busy at all) faults `F_LCD_BUSY` on its first word, at W5 of
step I3, its ninth micro-step (R304, R222). Everything before it stands in the state it leaves (R261): the clock is on,
the lines are outputs and show the word with `E` low again, the word is on the bus trace (R220) and the device, which
does not execute it, is as before. -/
def Obligations.UnpoweredInitFaults : Prop :=
  ∀ s : State, s.cfg.Wired → FgIdle s → s.devBusy ≠ .free → s.dev.nibble = false → RunsFor 9 s →
    ∃ t, exec .lcdInit s = .fault (.lcdBusy 0x038 { fgpos := .inOp .lcdInit 9, isrpos := none } t) ∧
      t.faults = s.faults ++ [.lcdBusy 0x038 { fgpos := .inOp .lcdInit 9, isrpos := none }] ∧
      t.fgpos = .inOp .lcdInit 9 ∧ t.events = s.events ++ [.latch 0x038] ∧
      t.regs.clken = s.regs.clken ||| maskBit 32 true (clkLcdBit s.cfg).val ∧
      (∀ p ∈ s.cfg.layout.lcdPins, lcdDrives t p = true) ∧ LinesAfter false 0x38 s t ∧
      t.dev = s.dev ∧ t.vram = s.vram ∧ t.lcdInit = s.lcdInit ∧ t.slot = s.slot

/-- `LCD_CURSOR_SET(x, y)` on its domain (R195, R197, R198, R242): the home word and then exactly `40·y + x` times
`0x014` — at most 79 — with their delays, and in two-line mode the cursor ends at (x, y); every byte of memory is as
before. -/
def Obligations.CursorSetStepsFromHome : Prop :=
  ∀ (s : State) (x y : Byte), x.toNat < 40 → y.toNat < 2 →
    s.cfg.Wired → FgIdle s → s.lcdInit = true → LcdCan s → DelaysCover s.cfg → RunsFor (6 * (1 + (40 * y.toNat + x.toNat))) s →
    ∃ t, exec (.lcdCursorSet x y) s = .next t ∧
      Wrote s t ((false, 0x02) :: List.replicate (40 * y.toNat + x.toNat) (false, 0x14)) ∧
      40 * y.toNat + x.toNat ≤ 79 ∧ t.devBusy = .free ∧ (∀ a, memRead t.vram a = memRead s.vram a) ∧
      t.dev.shift = 0 ∧ (s.dev.n = true → t.dev.cursor.col.val = x.toNat ∧ t.dev.cursor.row.val = y.toNat)

/-- `LCD_PRINT(s)` of at most 80 characters (R199, R201): one data word and one short delay for each character in
order and nothing else. With the display memory selected, in two-line mode the characters land at the cursor's
successive positions, every other byte of memory is as before, and the cursor has advanced once for each. In one-line
mode, where R228 gives any value to the cursor after a word, the first lands at the cursor and each later one at the
cell of the cursor drawn when the one before it was latched (`strayCell`), every other byte of memory is as before, and
the cursor is the last one drawn (that the draws are named by the stamps `draws + 7j + 4` is the model's choice, logs 4
and 5). With CGRAM selected each leaves five bits at the moving address, which are any value (R231, I24; log 39), drawn
when it is latched, and every other byte of memory is as before. -/
def Obligations.PrintWritesEachCharacter : Prop :=
  ∀ (s : State) (str : List Byte), str.length ≤ 80 →
    s.cfg.Wired → FgIdle s → s.lcdInit = true → LcdCan s → DelaysCover s.cfg → RunsFor (6 * str.length) s →
    ∃ t, exec (.lcdPrint str) s = .next t ∧ Wrote s t (str.map (fun b => (true, b))) ∧ t.devBusy = .free ∧
      t.dev.space = s.dev.space ∧
      (s.dev.space = .ddram →
        t.dev.shift = shifts s.dev.sh s.dev.id str.length s.dev.shift ∧ t.dev.cgaddr = s.dev.cgaddr) ∧
      (s.dev.n = true → s.dev.space = .ddram →
        t.vram = printInto s.dev.id str s.dev.cursor s.vram ∧
        (∀ a, (∀ k, k < str.length → a ≠ cursorAddr (advances s.dev.id k s.dev.cursor)) →
          memRead t.vram a = memRead s.vram a) ∧
        t.dev.cursor = advances s.dev.id str.length s.dev.cursor) ∧
      (s.dev.n = false → s.dev.space = .ddram →
        t.vram = printAt (strayCell s) 0 str s.vram ∧
        (∀ a, (∀ k, k < str.length → a ≠ cursorAddr (strayCell s k)) → memRead t.vram a = memRead s.vram a) ∧
        t.dev.cursor = strayCell s str.length) ∧
      (s.dev.space = .cgram →
        t.vram = printGlyphs s.dev.id (if s.dev.n then 7 else 8) (s.draws + 4) str s.dev.cgaddr s.vram ∧
        (∀ a, (∀ k, k < str.length → a ≠ cgramAddr (cgSteps s.dev.id k s.dev.cgaddr)) →
          memRead t.vram a = memRead s.vram a) ∧
        t.dev.cgaddr = cgSteps s.dev.id str.length s.dev.cgaddr ∧ t.dev.shift = s.dev.shift)

/-- The raw writes (R187, R188): a value of one byte (not 0 for an instruction) is sent with its settle delay and has
on the device the effect its bus word has (R220); a wider value is dropped with no bus activity, no delay and no
refusal (R182). The word executes at the fifth micro-step, four evaluations after the start; that the free values of
that evaluation are named by the stamp `draws + 4` is the model's choice (log 4). -/
def Obligations.RawWritesSendOneWord : Prop :=
  ∀ (s : State) (v : Word), s.cfg.Wired → FgIdle s → s.lcdInit = true →
    (LcdCan s → RunsFor 6 s → v ≠ 0 → v.toNat ≤ 0xFF →
      ∃ t u, exec (.lcdWriteInstr v) s = .next t ∧ Wrote s t [(false, v.setWidth 8)] ∧
        latchWord (busWord false false (v.setWidth 8)) { s with draws := s.draws + 4 } = .next u ∧
        t.dev = u.dev ∧ t.vram = u.vram) ∧
    (LcdCan s → RunsFor 6 s → v.toNat ≤ 0xFF →
      ∃ t u, exec (.lcdWriteData v) s = .next t ∧ Wrote s t [(true, v.setWidth 8)] ∧
        latchWord (busWord true false (v.setWidth 8)) { s with draws := s.draws + 4 } = .next u ∧
        t.dev = u.dev ∧ t.vram = u.vram) ∧
    (0xFF < v.toNat → exec (.lcdWriteInstr v) s = .next { s.turnOver with result := none } ∧
      exec (.lcdWriteData v) s = .next { s.turnOver with result := none })

/-- Operands outside their domain are refused by name, before any micro-step: a cursor outside 40 × 2 (R196), a string
of more than 80 characters (R200), the instruction byte 0 (R187, R234). -/
def Obligations.OperandsOutOfDomainAreRefused : Prop :=
  ∀ s : State, FgIdle s → s.lcdInit = true →
    (∀ x y : Byte, 40 ≤ x.toNat ∨ 2 ≤ y.toNat →
      exec (.lcdCursorSet x y) s = .refused (.cursorRange x y s.pos)) ∧
    (∀ str : List Byte, 80 < str.length →
      exec (.lcdPrint str) s = .refused (.printTooLong str.length s.pos)) ∧
    exec (.lcdWriteInstr 0) s = .refused (.lcdReserved 0 s.pos)

/-- R242: the advance to the right goes to the next column, and from column 39 to column 0 of the other row; to the
left to the column before, and from column 0 to column 39 of the other row. So `y·40 + x` cursor-right shifts from
(0, 0) reach (x, y), and the two directions undo each other. -/
def Obligations.CursorShiftsReachEveryCell : Prop :=
  (∀ p : Cursor,
    (p.col.val < 39 → (advance true p).col.val = p.col.val + 1 ∧ (advance true p).row = p.row) ∧
    (p.col.val = 39 → (advance true p).col.val = 0 ∧ (advance true p).row.val = 1 - p.row.val) ∧
    (0 < p.col.val → (advance false p).col.val = p.col.val - 1 ∧ (advance false p).row = p.row) ∧
    (p.col.val = 0 → (advance false p).col.val = 39 ∧ (advance false p).row.val = 1 - p.row.val)) ∧
  (∀ (x : Fin 40) (y : Fin 2), advances true (y.val * 40 + x.val) { col := 0, row := 0 } = { col := x, row := y }) ∧
  (∀ p : Cursor, advance false (advance true p) = p ∧ advance true (advance false p) = p)

/-- The frame of the LCD commands: the slot, the table, `kpd_init`, the handler, the rest of the machine and the
keypad's registers are as before, no pending bit is lost; the LCD's output register keeps every bit that is no LCD
line's, and its mode register every bit that is in no LCD line's field, as I2 writes them back as it read them (unless
`LCD_INIT` goes on here at that write). But for `LCD_INIT` that output register is the only one written, and `lcd_init`
and the lines' directions stay. In a shared port the two registers are `ODR` and `MODE` (R314), and where no fields
overlap the keypad's bits of both are kept; which pins the LCD's lines may then stand on is the premise `Config.Wired`
(R48; log 7). -/
def Obligations.LcdCommandFrames : Prop :=
  ∀ (s t : State) (i : Instr), i.format = .hc → i.opcode.getLsbD 7 = true → exec i s = .next t →
    t.slot = s.slot ∧ tableKept s t ∧ t.kpdInit = s.kpdInit ∧ handlerKept s t ∧ worldKept s t ∧ pendingKept s t ∧
    (i ≠ .lcdInit ∨ s.cfg.lcdShares = false → t.regs.mode = s.regs.mode) ∧
    t.regs.pull = s.regs.pull ∧ t.regs.mux = s.regs.mux ∧ t.regs.imr = s.regs.imr ∧
    t.regs.rtsr = s.regs.rtsr ∧ t.regs.irqen = s.regs.irqen ∧
    (s.cfg.lcdShares = false → t.regs.odr = s.regs.odr) ∧
    (s.cfg.lcdShares = true → t.regs.lmode = s.regs.lmode ∧ t.regs.lodr = s.regs.lodr) ∧
    (∀ n : Nat, (∀ p ∈ s.cfg.layout.lcdPins, p.val ≠ n) → (lcdOut t).getLsbD n = (lcdOut s).getLsbD n) ∧
    (s.fgpos ≠ .inOp .lcdInit 4 → ∀ n : Nat, (∀ p ∈ s.cfg.layout.lcdPins, n ≠ 2 * p.val ∧ n ≠ 2 * p.val + 1) →
      (lcdMode t).getLsbD n = (lcdMode s).getLsbD n) ∧
    (s.cfg.Wired → s.cfg.lcdShares = true → t.regs.odr.extractLsb' 0 8 = s.regs.odr.extractLsb' 0 8 ∧
      (s.fgpos ≠ .inOp .lcdInit 4 → t.regs.mode.extractLsb' 0 16 = s.regs.mode.extractLsb' 0 16)) ∧
    (i ≠ .lcdInit → t.lcdInit = s.lcdInit ∧ t.regs.clken = s.regs.clken ∧ t.regs.lmode = s.regs.lmode ∧
      t.highOut = s.highOut)

/-! ### Bus words -/

/-- `CLEAR_DISPLAY` (R223) and `RETURN_HOME` (R224), executed by a device that takes a word: latched on the trace, the
device busy long, the cursor home (in two-line mode), DDRAM selected, no shift; clear fills DDRAM with `0x20` and
sets `ID`, home leaves every byte; both leave CGRAM. -/
def Obligations.ClearAndHomeWords : Prop :=
  ∀ s : State, DeviceTakes s →
    (∃ t, exec .clearDisplay s = .next t ∧ t.events = s.events ++ [.latch 0x001] ∧ t.devBusy = .long ∧
      (∀ a, memRead t.vram a = if a < 0x100 then 0x20 else memRead s.vram a) ∧
      t.dev.space = .ddram ∧ t.dev.shift = 0 ∧ t.dev.id = true ∧
      (s.dev.n = true → t.dev.cursor = { col := 0, row := 0 })) ∧
    (∀ x, ∃ t, exec (.returnHome x) s = .next t ∧
      t.events = s.events ++ [.latch (if x then 0x003 else 0x002)] ∧ t.devBusy = .long ∧
      (∀ a, memRead t.vram a = memRead s.vram a) ∧
      t.dev.space = .ddram ∧ t.dev.shift = 0 ∧ t.dev.id = s.dev.id ∧
      (s.dev.n = true → t.dev.cursor = { col := 0, row := 0 }))

/-- `ENTRY_MODE_SET` (R225), `DISPLAY_CONTROL` (R226) and `FUNCTION_SET` (R228), executed by a device that takes a
word: latched on the trace (R220), the flags written as the word gives them and the device busy short; a 4-bit
function set ends the modelled protocol; in two-line mode (after the word) the cursor stays. -/
def Obligations.ModeWordsSetTheFlags : Prop :=
  ∀ s : State, DeviceTakes s →
    (∀ id sh, ∃ t, exec (.entryModeSet id sh) s = .next t ∧
      t.events = s.events ++ [.latch (busWord false false (0b000001#6 ++ bit id ++ bit sh))] ∧
      t.dev.id = id ∧ t.dev.sh = sh ∧ t.devBusy = .short ∧
      t.vram = s.vram ∧ (s.dev.n = true → t.dev = { s.dev with id := id, sh := sh })) ∧
    (∀ d c b, ∃ t, exec (.displayControl d c b) s = .next t ∧
      t.events = s.events ++ [.latch (busWord false false (0b00001#5 ++ bit d ++ bit c ++ bit b))] ∧
      t.dev.d = d ∧ t.dev.c = c ∧ t.dev.b = b ∧
      t.devBusy = .short ∧ t.vram = s.vram ∧ (s.dev.n = true → t.dev = { s.dev with d := d, c := c, b := b })) ∧
    (∀ dl n f x, ∃ t, exec (.functionSet dl n f x) s = .next t ∧
      t.events = s.events ++ [.latch (busWord false false (0b001#3 ++ bit dl ++ bit n ++ bit f ++ x))] ∧
      t.dev.dl = dl ∧ t.dev.n = n ∧ t.dev.f = f ∧
      t.devBusy = .short ∧ t.vram = s.vram ∧ t.dev.nibble = (!dl) ∧
      (n = true → t.dev = { s.dev with dl := dl, n := true, f := f, nibble := !dl }))

/-- `CURSOR_DISPLAY_SHIFT` (R227), executed by a device that takes a word: latched on the trace (R220); with `SC = 0`
the cursor moves one place and the shift stays, with `SC = 1` the display shifts by one modulo 40, so that every
screen position of a row shows what its neighbour showed (R243), and (in two-line mode) the cursor stays; memory
stays. -/
def Obligations.ShiftWordMovesCursorOrDisplay : Prop :=
  ∀ (s : State) (rl : Bool) (x : BitVec 2), DeviceTakes s →
    (∃ t, exec (.cursorDisplayShift false rl x) s = .next t ∧
      t.events = s.events ++ [.latch (busWord false false (0b00010#5 ++ bit rl ++ x))] ∧
      t.dev.shift = s.dev.shift ∧ t.vram = s.vram ∧
      t.devBusy = .short ∧ (s.dev.n = true → t.dev.cursor = advance rl s.dev.cursor)) ∧
    (∃ t, exec (.cursorDisplayShift true rl x) s = .next t ∧
      t.events = s.events ++ [.latch (busWord false false (0b00011#5 ++ bit rl ++ x))] ∧
      t.vram = s.vram ∧ t.devBusy = .short ∧
      t.dev.shift.val = (if rl then (s.dev.shift.val + 1) % 40 else (s.dev.shift.val + 39) % 40) ∧
      (∀ row p, visibleChar t row p = visibleChar s row (if rl then p + 1 else p - 1)) ∧
      (s.dev.n = true → t.dev.cursor = s.dev.cursor))

/-- `SET_CGRAM_ADDR` (R229) and `SET_DDRAM_ADDR` (R230), executed by a device that takes a word: latched on the trace
(R220), the address counter points into CGRAM, or for a valid display address the cursor is `Pos(ADD)` (in two-line
mode); an invalid display address completes too, with the cursor any value (I11) and, where CGRAM was selected, the
memory open (log 6). -/
def Obligations.AddressWordsPoint : Prop :=
  ∀ s : State, DeviceTakes s →
    (∀ a, ∃ t, exec (.setCgramAddr a) s = .next t ∧
      t.events = s.events ++ [.latch (busWord false false (0b01#2 ++ a))] ∧
      t.dev.space = .cgram ∧ t.dev.cgaddr = a ∧ t.vram = s.vram ∧ t.devBusy = .short) ∧
    (∀ a, ∃ t, exec (.setDdramAddr a) s = .next t ∧
      t.events = s.events ++ [.latch (busWord false false (0b1#1 ++ a))] ∧
      t.vram = s.vram ∧ t.devBusy = .short ∧
      (validDdram a = true → t.dev.space = .ddram ∧
        (s.dev.n = true → cursorAddr t.dev.cursor = a.toNat)) ∧
      (s.dev.space = .ddram → t.dev.space = .ddram))

/-- `WRITE_DATA` (R231), executed by a device that takes a word: in DDRAM the byte is stored at the cursor's address,
the cursor advances by `ID` (in two-line mode) and with `SH` the display shifts; in CGRAM five bits are stored at
`cgaddr`, which moves by `ID` modulo 64; every other byte of memory reads as before. The five bits are any value (I24),
of which R231's `b[4:0]` is one: that the model leaves them free is its choice between the two (log 39). -/
def Obligations.DataWordStoresAndAdvances : Prop :=
  ∀ (s : State) (b : Byte), DeviceTakes s → s.vram.wf →
    ∃ t, exec (.writeData b) s = .next t ∧ t.events = s.events ++ [.latch (0x200#10 ||| b.setWidth 10)] ∧
      t.devBusy = .short ∧
      (s.dev.space = .ddram →
        memRead t.vram (cursorAddr s.dev.cursor) = b ∧
        (∀ a, a ≠ cursorAddr s.dev.cursor → memRead t.vram a = memRead s.vram a) ∧
        t.dev.shift = (if s.dev.sh then shiftBy s.dev.id s.dev.shift else s.dev.shift) ∧
        (s.dev.n = true → t.dev.cursor = advance s.dev.id s.dev.cursor)) ∧
      (s.dev.space = .cgram →
        memRead t.vram (cgramAddr s.dev.cgaddr) = (Config.freeGlyph s.draws b).setWidth 8 ∧
        (∀ a, a ≠ cgramAddr s.dev.cgaddr → memRead t.vram a = memRead s.vram a) ∧
        t.dev.cgaddr = (if s.dev.id then s.dev.cgaddr + 1 else s.dev.cgaddr - 1))

/-- A word latched while the device is busy faults `F_LCD_BUSY` (R222); after a 4-bit function set every later word
faults `F_LCD_MODE` (R228): for every writing word. It is on the bus trace (R220) and is not executed. For a device that
is both busy and in 4-bit mode `faults` has both reasons; that the outcome is then `F_LCD_MODE` is the model's choice
(log 13); that `dev_busy` is the faulting word's class (R221) is its reading (log 38). -/
def Obligations.LatchFaults : Prop :=
  ∀ (s : State) (w : BusWord), w ≠ 0 → w.getLsbD 8 = false →
    let busy : State := { s with events := s.events ++ [.latch w], anyLatch := true, devBusy := busyClass w }
    (s.dev.nibble = false → s.devBusy ≠ .free →
      latchWord w s = .fault (.lcdBusy w s.pos { busy with faults := s.faults ++ [.lcdBusy w s.pos] })) ∧
    (s.dev.nibble = true → s.devBusy = .free →
      latchWord w s = .fault (.lcdMode w s.pos { busy with faults := s.faults ++ [.lcdMode w s.pos] })) ∧
    (s.dev.nibble = true → s.devBusy ≠ .free →
      latchWord w s = .fault (.lcdMode w s.pos
        { busy with faults := s.faults ++ [.lcdMode w s.pos, .lcdBusy w s.pos] }))

/-- `READ_BF_AC` and `READ_DATA` are refused with `R_LCD_READ` and their word (R110, R232, R233), and the word 0x000
with `R_LCD_RESERVED` (R110, R234), in every state. -/
def Obligations.ReadWordsAreRefused : Prop :=
  ∀ (s : State) (x : Byte),
    exec (.readBfAc x) s = .refused (.lcdRead (busWord false true x) s.pos) ∧
    exec (.readData x) s = .refused (.lcdRead (busWord true true x) s.pos) ∧
    latchWord 0 s = .refused (.lcdReserved 0 s.pos)

/-- The frame of the bus words: every register, the keypad's cells, both positions and their locals, the flags and the
rest of the machine are as before; memory changes only by `CLEAR_DISPLAY`, in DDRAM, and by `WRITE_DATA`, at the one
address its meaning computes. -/
def Obligations.BusWordFrames : Prop :=
  ∀ (s t : State) (i : Instr), i.format = .lb → exec i s = .next t →
    t.regs = s.regs ∧ t.highOut = s.highOut ∧ t.slot = s.slot ∧ tableKept s t ∧ flagsKept s t ∧ handlerKept s t ∧ foregroundKept s t ∧
    worldKept s t ∧ detectorKept s t ∧ t.quantum = s.quantum ∧
    (i ≠ .clearDisplay → (∀ b, i ≠ .writeData b) → ∀ a, memRead t.vram a = memRead s.vram a) ∧
    (i = .clearDisplay → ∀ a, 0x100 ≤ a → memRead t.vram a = memRead s.vram a) ∧
    (∀ b, i = .writeData b → s.vram.wf → ∀ a,
      a ≠ (match s.dev.space with
        | .ddram => cursorAddr s.dev.cursor
        | .cgram => cgramAddr s.dev.cgaddr) → memRead t.vram a = memRead s.vram a)

/-- `SettleTime` (R184): the long delay for an instruction byte 0x01, 0x02 or 0x03, the short one for every other
instruction and every character; a word's busy class goes by the same cases (R221). W6 is recorded, and after it the
device is free where the delay covers its class, else as it was (R183). -/
def Obligations.SettleDelayFreesTheDevice : Prop :=
  (∀ (c : Config) (b : Byte),
    settleTime c true b = c.tShort.micros ∧
    settleTime c false b = (if b.toNat = 1 ∨ b.toNat = 2 ∨ b.toNat = 3 then c.tLong.micros else c.tShort.micros)) ∧
  (∀ b : Byte, busyClass (busWord true false b) = .short ∧
    busyClass (busWord false false b) = (if b.toNat = 1 ∨ b.toNat = 2 ∨ b.toNat = 3 then .long else .short)) ∧
  (∀ (s : State) (rs : Bool) (b : Byte), ∃ t, micro .fg (.settleDelay rs b) s = .next t ∧
    t.events = s.events ++ [.delay (settleTime s.cfg rs b)] ∧
    (s.devBusy = .short → s.cfg.devTShort ≤ settleTime s.cfg rs b → t.devBusy = .free) ∧
    (s.devBusy = .long → s.cfg.devTLong ≤ settleTime s.cfg rs b → t.devBusy = .free) ∧
    (s.devBusy = .short → settleTime s.cfg rs b < s.cfg.devTShort → t.devBusy = .short) ∧
    (s.devBusy = .long → settleTime s.cfg rs b < s.cfg.devTLong → t.devBusy = .long))

/-! ### Memory and invariants -/

/-- The display's memories: what is written is read back, every other address reads as before, and clearing gives
spaces in DDRAM and keeps CGRAM (R223, R231, R240). -/
def Obligations.MemoryReadsBack : Prop :=
  ∀ (m : Memory) (a x : Nat) (b : Byte), m.wf →
    memRead (memWrite m a b) x = (if x = a then b else memRead m x) ∧
    memRead (memClearDdram m) x = (if x < 0x100 then 0x20 else memRead m x)

/-- Every step keeps the display's memories in canonical form, from every state that has them so. -/
def Obligations.MemoryStaysCanonical : Prop :=
  ∀ s t : State, MemoryLegal s → step s = .next t → MemoryLegal t

/-- R145: every step keeps the slot a key code, in 0..16, from every state in which it is one. -/
def Obligations.SlotStaysAKeyCode : Prop :=
  ∀ s t : State, SlotLegal s → step s = .next t → SlotLegal t

/-- R181, R312: every step keeps the bus trace free of reads: no latched word ever has `RW = 1`. -/
def Obligations.BusIsOnlyWritten : Prop :=
  ∀ s t : State, OnlyWrites s → step s = .next t → OnlyWrites t

/-- R300, R303: every step keeps this: unless the keypad is initialized, or `KPD_INIT` has just done K8 and stands at K9
or K10, no line is delivered; and where no line is delivered none requests, so no handler can be entered before K8. -/
def Obligations.NoHandlerBeforeKpdInit : Prop :=
  (∀ s t : State, UndeliveredBeforeInit s → step s = .next t → UndeliveredBeforeInit t) ∧
  (∀ s : State, UndeliveredBeforeInit s → s.kpdInit = false → s.fgpos ≠ .inOp .kpdInit 17 →
    s.fgpos ≠ .inOp .kpdInit 18 → ∀ c, req s c = false)

/-- R158: every step keeps this: while a handler stands between its mask S1 and its unmask S8 all four lines are masked
in `IMR`; and then none of them requests. -/
def Obligations.LinesStayMaskedInAScan : Prop :=
  (∀ s t : State, ScanMasksTheLines s → step s = .next t → ScanMasksTheLines t) ∧
  (∀ (s : State) (p : IsrPos), ScanMasksTheLines s → s.isrpos = some p → MaskedScan p →
    (∀ c : Col, s.regs.imr.getLsbD c.val = false) ∧ ∀ c, req s c = false)

/-- The five invariants hold at reset, on every configuration; and the board that `State.reset` stands for keeps R10
and R85, and its fields do not overlap. -/
def Obligations.InvariantsHoldAtReset : Prop :=
  (∀ c : Config, MemoryLegal (State.resetWith c) ∧ SlotLegal (State.resetWith c) ∧
    OnlyWrites (State.resetWith c) ∧ UndeliveredBeforeInit (State.resetWith c) ∧
    ScanMasksTheLines (State.resetWith c)) ∧
  State.reset.cfg.broken = none ∧ State.reset.cfg.Wired

/-- The writers of R30's cells. R33: the character table is replaced by `KPD_SET_CHAR_LUT` and by no other instruction.
R31, R32: no instruction but a column handler leaves a nonzero key in the slot that was not there; and a handler
leaves the slot as it was or a key of its own column. -/
def Obligations.CellsHaveTheirWriters : Prop :=
  (∀ (s t : State) (i : Instr), exec i s = .next t →
    t.lut = s.lut ∨ ∃ table, i = .kpdSetCharLut table ∧ t.lut = table) ∧
  (∀ (s t : State) (i : Instr), i.format ≠ .irq → exec i s = .next t → t.slot = s.slot ∨ t.slot = 0) ∧
  (∀ (s t : State) (c : Col), exec (isrInstr c) s = .next t → t.slot = s.slot ∨ ∃ r : Row, t.slot = keyCode r c)

/-- No step changes the configuration (R9). -/
def Obligations.ConfigurationIsFixed : Prop :=
  ∀ s t : State, step s = .next t → t.cfg = s.cfg
end

