-- ==== Sys2Proof/Laws/Bits.lean ====
section
/-! SUPPORT. What reading a bit or a field gives after one was written: once for each of the registers' bit operations
(R36–R48), wherever the OPEN positions stand. -/

namespace Sys2Proof.Machine

/-! ### Bits -/

/-- A mask's bits. -/
theorem maskBit_getLsbD (n : Nat) (b : Bool) (i j : Nat) :
    (maskBit n b i).getLsbD j = (b && decide (j = i) && decide (j < n)) := by
  cases b
  · simp [maskBit]
  · simp only [maskBit, if_true, BitVec.getLsbD_ofNat, Nat.testBit_two_pow, Bool.true_and, eq_comm (a := i)]
    exact Bool.and_comm ..

/-- A written bit reads back, and every other bit is kept. -/
theorem setBit_getLsbD (w : Word) (i j : Nat) (b : Bool) :
    (setBit w i b).getLsbD j = if j = i then (b && decide (j < 32)) else w.getLsbD j := by
  simp only [setBit, BitVec.getLsbD_or, BitVec.getLsbD_and, BitVec.getLsbD_not, maskBit_getLsbD]
  by_cases hj : j = i
  · subst hj
    by_cases h : j < 32 <;> simp [h]
  · by_cases h : j < 32
    · simp [hj, h]
    · simp [hj, h, BitVec.getLsbD_of_ge w j (by omega)]

/-- Bits of a mask are replaced, all others kept. -/
theorem setBits_getLsbD (w m v : Word) (j : Nat) :
    (setBits w m v).getLsbD j = if m.getLsbD j then v.getLsbD j else w.getLsbD j := by
  simp only [setBits, BitVec.getLsbD_or, BitVec.getLsbD_and, BitVec.getLsbD_not]
  by_cases h : j < 32
  · cases m.getLsbD j <;> simp [h]
  · simp [h, BitVec.getLsbD_of_ge _ j (Nat.le_of_not_lt h)]

/-- The low half is the value written, -/
@[simp] theorem setLow16_low (w : Word) (v : BitVec 16) : (setLow16 w v).extractLsb' 0 16 = v := by
  apply BitVec.eq_of_getLsbD_eq
  intro i hi
  rw [BitVec.getLsbD_extractLsb', setLow16, BitVec.getLsbD_append]
  simp [hi]

/-- and the high half is kept. -/
@[simp] theorem setLow16_high (w : Word) (v : BitVec 16) :
    (setLow16 w v).extractLsb' 16 16 = w.extractLsb' 16 16 := by
  apply BitVec.eq_of_getLsbD_eq
  intro i hi
  rw [BitVec.getLsbD_extractLsb', setLow16, BitVec.getLsbD_append]
  simp [hi]

/-! ### Pin fields -/

/-- The two bits of a field. -/
theorem pinField_getLsbD (w : Word) (p j : Nat) :
    (pinField w p).getLsbD j = (decide (j < 2) && w.getLsbD (2 * p + j)) := by
  simp [pinField]

/-- Two words with the same two bits have the same field. -/
theorem pinField_congr {v w : Word} {p : Nat} (h0 : v.getLsbD (2 * p) = w.getLsbD (2 * p))
    (h1 : v.getLsbD (2 * p + 1) = w.getLsbD (2 * p + 1)) : pinField v p = pinField w p := by
  apply BitVec.eq_of_getLsbD_eq
  intro j hj
  rw [pinField_getLsbD, pinField_getLsbD]
  interval_cases j <;> simp [h0, h1]

/-- The bits of a word whose field of pin `p` was written. -/
theorem setPinField_getLsbD (w : Word) (p j : Nat) (v : BitVec 2) :
    (setPinField w p v).getLsbD j =
      if j = 2 * p + 1 then (v.getLsbD 1 && decide (j < 32))
      else if j = 2 * p then (v.getLsbD 0 && decide (j < 32)) else w.getLsbD j := by
  simp [setPinField, setBit_getLsbD]

/-- A written field reads back. -/
theorem pinField_setPinField (w : Word) {p : Nat} (hp : p < 16) (v : BitVec 2) :
    pinField (setPinField w p v) p = v := by
  apply BitVec.eq_of_getLsbD_eq
  intro j hj
  rw [pinField_getLsbD, setPinField_getLsbD]
  interval_cases j
  · simp; omega
  · simp; omega

/-- Another pin's field is kept. -/
theorem pinField_setPinField_of_ne (w : Word) {p q : Nat} (h : q ≠ p) (v : BitVec 2) :
    pinField (setPinField w p v) q = pinField w q := by
  apply pinField_congr
  · rw [setPinField_getLsbD, if_neg (by omega), if_neg (by omega)]
  · rw [setPinField_getLsbD, if_neg (by omega), if_neg (by omega)]

/-! ### The LCD port (R48) -/

/-- Fields of several pins set to OUTPUT: those pins' read OUTPUT, where the word has them, -/
theorem pinField_outputs {ps : List PortPin} {w : Word} {p : PortPin} (hp : p.val < 16)
    (h : p ∈ ps ∨ pinField w p.val = modeOutput) :
    pinField (ps.foldl (fun v q => setPinField v q.val modeOutput) w) p.val = modeOutput := by
  induction ps generalizing w with
  | nil => simpa using h
  | cons q rest ih =>
    rw [List.foldl_cons]
    apply ih
    by_cases hq : p = q
    · subst hq; exact .inr (pinField_setPinField w hp _)
    · rcases h with h | h
      · rcases List.mem_cons.1 h with h | h
        · exact absurd h hq
        · exact .inl h
      · exact .inr (by rw [pinField_setPinField_of_ne _ (fun h' => hq (Fin.ext h')), h])

/-- and every bit of another pin's is kept. -/
theorem outputs_getLsbD {ps : List PortPin} {w : Word} {n : Nat} (h : ∀ p ∈ ps, n ≠ 2 * p.val ∧ n ≠ 2 * p.val + 1) :
    (ps.foldl (fun v q => setPinField v q.val modeOutput) w).getLsbD n = w.getLsbD n := by
  induction ps generalizing w with
  | nil => rfl
  | cons q rest ih =>
    rw [List.foldl_cons, ih fun p hp => h p (by simp [hp]), setPinField_getLsbD,
      if_neg (h q (by simp)).2, if_neg (h q (by simp)).1]

/-- After I2 every LCD line's field reads OUTPUT, where the word has one. -/
theorem lcdLinesOut_output {l : Layout} {p : PortPin} (hp : p ∈ l.lcdPins) (h : p.val < 16) (w : Word) :
    pinField (lcdLinesOut l w) p.val = modeOutput := pinField_outputs h (.inl hp)

/-- I2 keeps every bit that is no LCD line's field. -/
theorem lcdLinesOut_getLsbD {l : Layout} {n : Nat} (h : ∀ p ∈ l.lcdPins, n ≠ 2 * p.val ∧ n ≠ 2 * p.val + 1)
    (w : Word) : (lcdLinesOut l w).getLsbD n = w.getLsbD n := outputs_getLsbD h

/-- The data lines' pins are among the eleven. -/
theorem dataPin_mem (l : Layout) (i : Fin 8) : l.dataPin i ∈ l.lcdPins := by
  simp [Layout.lcdPins, Layout.dataPin]

/-- With different pins, different data lines stand at different bits. -/
theorem dataPin_inj {l : Layout} (h : l.lcdPins.Nodup) {i j : Fin 8}
    (hij : (l.dataPin i).val = (l.dataPin j).val) : i = j := by
  have h' : l.lcdD.toList.Nodup := by
    simp only [Layout.lcdPins, List.nodup_cons] at h
    exact h.2.2.2
  have := (List.nodup_iff_injective_get.1 h') (a₁ := ⟨i.val, by simp⟩) (a₂ := ⟨j.val, by simp⟩)
    (by simpa [Layout.dataPin] using Fin.ext hij)
  ext
  simpa using this

/-- Data lines set one after the other read back at each of them. -/
theorem setDataLines_at {l : Layout} (h : l.lcdPins.Nodup) (b : Byte) {is : List (Fin 8)} {w : Word} {i : Fin 8}
    (hi : i ∈ is ∨ w.getLsbD (l.dataPin i).val = b.getLsbD i.val) :
    (is.foldl (fun v i => setBit v (l.dataPin i).val (b.getLsbD i.val)) w).getLsbD
      (l.dataPin i).val = b.getLsbD i.val := by
  induction is generalizing w with
  | nil => exact hi.resolve_left (by simp)
  | cons j rest ih =>
    rw [List.foldl_cons]
    apply ih
    by_cases hj : i = j
    · subst hj
      rw [setBit_getLsbD, if_pos rfl, decide_eq_true (l.dataPin i).isLt, Bool.and_true]
      exact .inr rfl
    · rw [setBit_getLsbD, if_neg (fun h' => hj (dataPin_inj h h'))]
      simpa [hj] using hi

/-- A byte put on the data lines reads back at each of them, -/
theorem setData_at {l : Layout} (h : l.lcdPins.Nodup) (b : Byte) (w : Word) (i : Fin 8) :
    (setData l b w).getLsbD (l.dataPin i).val = b.getLsbD i.val :=
  setDataLines_at h b (.inl (by revert i; decide))

/-- and every other bit is kept. -/
theorem setData_other {l : Layout} (b : Byte) (w : Word) {n : Nat}
    (h : ∀ i : Fin 8, (l.dataPin i).val ≠ n) : (setData l b w).getLsbD n = w.getLsbD n := by
  have : ∀ (is : List (Fin 8)) (v : Word),
      (is.foldl (fun v i => setBit v (l.dataPin i).val (b.getLsbD i.val)) v).getLsbD n = v.getLsbD n := by
    intro is
    induction is with
    | nil => intro v; rfl
    | cons i rest ih => intro v; rw [List.foldl_cons, ih, setBit_getLsbD, if_neg (Ne.symm (h i))]
  exact this _ _

/-! ### `MUX` (R42) -/

/-- A field's mask has the bits from its position on, as wide as the field. -/
theorem muxMask_getLsbD (l : Layout) (c : Col) (j : Nat) :
    (muxMask l c).getLsbD j =
      (decide (j < 32) && decide (l.muxAt c ≤ j) && decide (j < l.muxAt c + l.muxWidth)) := by
  rw [muxMask, BitVec.getLsbD_ofNat, Nat.mul_comm, Nat.testBit_two_pow_mul, Nat.testBit_two_pow_sub_one, Bool.and_assoc]
  by_cases h : l.muxAt c ≤ j
  · simp only [h, decide_true, Bool.true_and]
    congr 2
    exact propext (by omega)
  · simp [h]

/-- Different fields' masks share no bit. -/
theorem muxMask_disjoint {l : Layout} (h : l.Wired) {c d : Col} (hcd : c ≠ d) {j : Nat}
    (hj : (muxMask l c).getLsbD j = true) : (muxMask l d).getLsbD j = false := by
  simp only [muxMask_getLsbD, Bool.and_eq_true, decide_eq_true_eq] at hj
  rw [muxMask_getLsbD]
  rcases h.2.2.2.2.2.2 c d hcd with h' | h'
  · simp; omega
  · simp; omega

/-- `KPD_PORT_CODE` lies within its field. -/
theorem muxCode_inside {l : Layout} (h : l.Wired) (c : Col) : muxCode l c &&& muxMask l c = muxCode l c := by
  apply BitVec.eq_of_getLsbD_eq
  intro j hj
  rw [BitVec.getLsbD_and, muxMask_getLsbD]
  have hc : (muxCode l c).getLsbD j = true →
      l.muxAt c ≤ j ∧ j < l.muxAt c + l.muxWidth := by
    intro hb
    rw [muxCode, BitVec.getLsbD_ofNat, Nat.mul_comm, Nat.testBit_two_pow_mul] at hb
    simp only [ge_iff_le, Bool.and_eq_true, decide_eq_true_eq] at hb
    refine ⟨hb.2.1, ?_⟩
    by_contra hge
    have hlt : l.kpdPortCode < 2 ^ (j - l.muxAt c) :=
      Nat.lt_of_lt_of_le h.2.2.2.2.1 (Nat.pow_le_pow_right (by omega) (by omega))
    rw [Nat.testBit_lt_two_pow hlt] at hb
    exact absurd hb.2.2 (by simp)
  cases hb : (muxCode l c).getLsbD j
  · simp
  · have := hc hb
    simp [hj, this.1, this.2]

/-- A field written with `KPD_PORT_CODE` is routed, -/
theorem routed_route {l : Layout} (h : l.Wired) (c : Col) (w : Word) : routed l (route l c w) c = true := by
  rw [routed, beq_iff_eq, ← muxCode_inside h c]
  apply BitVec.eq_of_getLsbD_eq
  intro j hj
  simp only [route, BitVec.getLsbD_and, setBits_getLsbD]
  cases (muxMask l c).getLsbD j <;> simp

/-- and no other field is touched. -/
theorem routed_route_of_ne {l : Layout} (h : l.Wired) {c d : Col} (hcd : d ≠ c) (w : Word) :
    routed l (route l c w) d = routed l w d := by
  have : route l c w &&& muxMask l d = w &&& muxMask l d := by
    apply BitVec.eq_of_getLsbD_eq
    intro j hj
    simp only [route, BitVec.getLsbD_and, setBits_getLsbD]
    cases hm : (muxMask l c).getLsbD j
    · rfl
    · rw [muxMask_disjoint h (Ne.symm hcd) hm, Bool.and_false, Bool.and_false]
  rw [routed, routed, this]

/-- At reset no field is routed (R58). -/
theorem routed_unrouted {l : Layout} (h : l.Wired) (c : Col) : routed l (unrouted l) c = false := by
  rw [Bool.eq_false_iff]
  intro hr
  rw [routed, beq_iff_eq] at hr
  have hw := h.2.2.2.1
  have hp := h.2.2.2.2.2.1 c
  by_cases hk : l.kpdPortCode = 0
  · have hb := congrArg (fun x : Word => x.getLsbD (l.muxAt c)) hr
    have hm : (muxMask l c).getLsbD (l.muxAt c) = true := by
      rw [muxMask_getLsbD]; simp; omega
    have hall : (muxBits l).getLsbD (l.muxAt c) = true := by
      simp only [muxBits, BitVec.getLsbD_or, Bool.or_eq_true]
      fin_cases c <;> simp_all
    simp [unrouted, muxCode, hk, hm, hall] at hb
  · have hz : muxCode l c = 0 := by rw [← hr]; simp [unrouted, hk]
    have hlt : l.kpdPortCode * 2 ^ l.muxAt c < 2 ^ 32 := by
      calc l.kpdPortCode * 2 ^ l.muxAt c < 2 ^ l.muxWidth * 2 ^ l.muxAt c :=
            Nat.mul_lt_mul_of_pos_right h.2.2.2.2.1 (by positivity)
        _ = 2 ^ (l.muxWidth + l.muxAt c) := (Nat.pow_add ..).symm
        _ ≤ 2 ^ 32 := Nat.pow_le_pow_right (by omega) (by omega)
    have := congrArg BitVec.toNat hz
    rw [muxCode, BitVec.toNat_ofNat, Nat.mod_eq_of_lt hlt] at this
    simp [hk] at this

/-! ### `CLKEN` and `IRQEN` (R37, R46) -/

/-- A set bit reads 1. -/
theorem or_maskBit_getLsbD (w : Word) (i : Fin 32) : (w ||| maskBit 32 true i.val).getLsbD i.val = true := by
  simp [maskBit_getLsbD]

/-- After K8 every line is delivered. -/
theorem irqOn_set (l : Layout) (w : Word) (c : Col) : irqOn l (w ||| irqBits l) c = true := by
  have h (d : Col) : l.irqAt d < 32 := (l.irqenBit[d]).isLt
  fin_cases c <;> simp [irqOn, irqBits, maskBit_getLsbD, h]

/-! ### Register roles (R36, R314) -/

/-- A written register reads back, -/
@[simp] theorem Regs.get_set (g : Regs) {r : Role} (h : r ≠ .idr) (w : Word) : (g.set r w).get r = w := by
  cases r <;> first | rfl | exact absurd rfl h

/-- and every other one is kept. -/
theorem Regs.get_set_of_ne (g : Regs) {r q : Role} (h : q ≠ r) (w : Word) : (g.set r w).get q = g.get q := by
  cases r <;> cases q <;> first | rfl | exact absurd rfl h

end Sys2Proof.Machine
end

