-- ==== Sys2Proof/Laws/Memory.lean ====
section
/-! SUPPORT. The laws of the display's memories: read after write, and the canonical form every operation keeps. -/

namespace Sys2Proof.Machine

/-- A cell inserted below a bound stays above it. -/
theorem memInsert_above {a : Nat} {b : Byte} {m : Memory} {lo : Nat} (hlo : lo < a)
    (h : ∀ c ∈ m, lo < c.1) : ∀ c ∈ memInsert a b m, lo < c.1 := by
  induction m with
  | nil => simpa [memInsert] using hlo
  | cons x rest ih =>
    simp only [memInsert]
    have hx := h x (by simp)
    have hr : ∀ c ∈ rest, lo < c.1 := fun c hc => h c (by simp [hc])
    split
    · intro c hc
      simp only [List.mem_cons] at hc
      rcases hc with rfl | rfl | hc
      · exact hlo
      · exact hx
      · exact hr c hc
    · split
      · intro c hc
        simp only [List.mem_cons] at hc
        rcases hc with rfl | hc
        · exact hlo
        · exact hr c hc
      · intro c hc
        simp only [List.mem_cons] at hc
        rcases hc with rfl | hc
        · exact hx
        · exact ih hr c hc

theorem memInsert_sorted {a : Nat} {b : Byte} {m : Memory}
    (h : m.Pairwise (fun x y => x.1 < y.1)) : (memInsert a b m).Pairwise (fun x y => x.1 < y.1) := by
  induction m with
  | nil => simp [memInsert]
  | cons x rest ih =>
    rw [List.pairwise_cons] at h
    simp only [memInsert]
    split
    · rename_i hlt
      refine List.Pairwise.cons ?_ (List.Pairwise.cons h.1 h.2)
      intro c hc
      rcases List.mem_cons.1 hc with rfl | hc
      · exact hlt
      · exact Nat.lt_trans hlt (h.1 c hc)
    · split
      · rename_i heq
        exact List.Pairwise.cons (fun c hc => by simpa [heq] using h.1 c hc) h.2
      · refine List.Pairwise.cons ?_ (ih h.2)
        exact memInsert_above (by omega) h.1

theorem memInsert_mem {a : Nat} {b : Byte} {m : Memory} {c : Host.Cell} (h : c ∈ memInsert a b m) :
    c = (a, b) ∨ c ∈ m := by
  induction m with
  | nil => simpa [memInsert] using h
  | cons x rest ih =>
    simp only [memInsert] at h
    split at h
    · simpa using h
    · split at h
      · rcases List.mem_cons.1 h with rfl | h
        · exact .inl rfl
        · exact .inr (List.mem_cons_of_mem _ h)
      · rcases List.mem_cons.1 h with rfl | h
        · exact .inr (by simp)
        · rcases ih h with h | h
          · exact .inl h
          · exact .inr (List.mem_cons_of_mem _ h)

/-- A sublist of a canonical memory is canonical. -/
theorem wf_filter {m : Memory} (h : m.wf) (p : Host.Cell → Bool) : Memory.wf (m.filter p) :=
  ⟨h.1.filter p, fun c hc => h.2 c (List.mem_filter.1 hc).1⟩

/-- A write keeps the canonical form. -/
theorem memWrite_wf {m : Memory} (h : m.wf) (a : Nat) (b : Byte) : (memWrite m a b).wf := by
  unfold memWrite
  split
  · exact wf_filter h _
  · rename_i hb
    refine ⟨memInsert_sorted h.1, fun c hc => ?_⟩
    rcases memInsert_mem hc with rfl | hc
    · exact hb
    · exact h.2 c hc

/-- Clearing DDRAM keeps the canonical form. -/
theorem memClearDdram_wf {m : Memory} (h : m.wf) : (memClearDdram m).wf := wf_filter h _

/-- The empty memory, reset's, is canonical. -/
theorem wf_nil : Memory.wf [] := by simp [Memory.wf]

/-- A canonical memory reads the byte of a cell it lists. -/
theorem memRead_of_not_mem {m : Memory} {a : Nat} (h : ∀ c ∈ m, c.1 ≠ a) : memRead m a = blank a := by
  induction m with
  | nil => rfl
  | cons x rest ih =>
    simp only [memRead]
    rw [if_neg (h x (by simp))]
    exact ih fun c hc => h c (by simp [hc])

/-- Dropping cells by address leaves every kept address as it read. -/
theorem memRead_filter {m : Memory} (p : Nat → Bool) (a : Nat) :
    memRead (m.filter (fun c => p c.1)) a = if p a then memRead m a else blank a := by
  induction m with
  | nil => simp [memRead]
  | cons x rest ih =>
    simp only [List.filter_cons]
    by_cases hx : p x.1
    · simp only [hx, if_true, memRead]
      by_cases ha : x.1 = a
      · subst ha; simp [hx]
      · simp [ha, ih]
    · by_cases ha : x.1 = a
      · subst ha; simp [hx, ih]
      · simp [hx, ih, memRead, ha]

theorem memRead_insert {m : Memory} (a : Nat) (b : Byte) (x : Nat)
    (h : m.Pairwise (fun x y => x.1 < y.1)) :
    memRead (memInsert a b m) x = if x = a then b else memRead m x := by
  induction m with
  | nil =>
    simp only [memInsert, memRead]
    by_cases hx : x = a
    · simp [hx]
    · simp [hx, Ne.symm hx]
  | cons c rest ih =>
    rw [List.pairwise_cons] at h
    simp only [memInsert]
    split
    · rename_i hlt
      simp only [memRead]
      by_cases hx : x = a
      · simp [hx]
      · simp [hx, Ne.symm hx]
    · split
      · rename_i heq
        simp only [memRead]
        by_cases hx : x = a
        · simp [hx]
        · simp [hx, Ne.symm hx, ← heq]
      · rename_i hle hne
        simp only [memRead, ih h.2]
        by_cases hc : c.1 = x
        · have : x ≠ a := by omega
          simp [hc, this]
        · simp [hc]

end Sys2Proof.Machine
end

