-- ==== Sys2Proof/Laws/State.lean ====
section
/-! SUPPORT. What each named update of the state leaves alone, one lemma a field; and the values of the fields it
writes. -/

namespace Sys2Proof.Machine

@[simp] theorem settle_cfg (s : State) : s.settle.cfg = s.cfg := rfl
@[simp] theorem settle_slot (s : State) : s.settle.slot = s.slot := rfl
@[simp] theorem settle_lut (s : State) : s.settle.lut = s.lut := rfl
@[simp] theorem settle_lutInstalled (s : State) : s.settle.lutInstalled = s.lutInstalled := rfl
@[simp] theorem settle_highOut (s : State) : s.settle.highOut = s.highOut := rfl
@[simp] theorem settle_fgpos (s : State) : s.settle.fgpos = s.fgpos := rfl
@[simp] theorem settle_fgT (s : State) : s.settle.fgT = s.fgT := rfl
@[simp] theorem settle_fgV (s : State) : s.settle.fgV = s.fgV := rfl
@[simp] theorem settle_isrpos (s : State) : s.settle.isrpos = s.isrpos := rfl
@[simp] theorem settle_isrT (s : State) : s.settle.isrT = s.isrT := rfl
@[simp] theorem settle_isrS (s : State) : s.settle.isrS = s.isrS := rfl
@[simp] theorem settle_isrR (s : State) : s.settle.isrR = s.isrR := rfl
@[simp] theorem settle_kpdInit (s : State) : s.settle.kpdInit = s.kpdInit := rfl
@[simp] theorem settle_lcdInit (s : State) : s.settle.lcdInit = s.lcdInit := rfl
@[simp] theorem settle_refused (s : State) : s.settle.refused = s.refused := rfl
@[simp] theorem settle_faults (s : State) : s.settle.faults = s.faults := rfl
@[simp] theorem settle_devBusy (s : State) : s.settle.devBusy = s.devBusy := rfl
@[simp] theorem settle_dev (s : State) : s.settle.dev = s.dev := rfl
@[simp] theorem settle_vram (s : State) : s.settle.vram = s.vram := rfl
@[simp] theorem settle_anyLatch (s : State) : s.settle.anyLatch = s.anyLatch := rfl
@[simp] theorem settle_keys (s : State) : s.settle.keys = s.keys := rfl
@[simp] theorem settle_bouncing (s : State) : s.settle.bouncing = s.bouncing := rfl
@[simp] theorem settle_lcdPowered (s : State) : s.settle.lcdPowered = s.lcdPowered := rfl
@[simp] theorem settle_result (s : State) : s.settle.result = s.result := rfl
@[simp] theorem settle_events (s : State) : s.settle.events = s.events := rfl
@[simp] theorem settle_port (s : State) : s.settle.port = s.port := rfl
@[simp] theorem settle_sched (s : State) : s.settle.sched = s.sched := rfl
@[simp] theorem settle_quantum (s : State) : s.settle.quantum = s.quantum := rfl

@[simp] theorem turnOver_cfg (s : State) : s.turnOver.cfg = s.cfg := rfl
@[simp] theorem turnOver_slot (s : State) : s.turnOver.slot = s.slot := rfl
@[simp] theorem turnOver_lut (s : State) : s.turnOver.lut = s.lut := rfl
@[simp] theorem turnOver_lutInstalled (s : State) : s.turnOver.lutInstalled = s.lutInstalled := rfl
@[simp] theorem turnOver_regs (s : State) : s.turnOver.regs = s.regs := rfl
@[simp] theorem turnOver_highOut (s : State) : s.turnOver.highOut = s.highOut := rfl
@[simp] theorem turnOver_fgpos (s : State) : s.turnOver.fgpos = s.fgpos := rfl
@[simp] theorem turnOver_fgT (s : State) : s.turnOver.fgT = s.fgT := rfl
@[simp] theorem turnOver_fgV (s : State) : s.turnOver.fgV = s.fgV := rfl
@[simp] theorem turnOver_isrpos (s : State) : s.turnOver.isrpos = s.isrpos := rfl
@[simp] theorem turnOver_isrT (s : State) : s.turnOver.isrT = s.isrT := rfl
@[simp] theorem turnOver_isrS (s : State) : s.turnOver.isrS = s.isrS := rfl
@[simp] theorem turnOver_isrR (s : State) : s.turnOver.isrR = s.isrR := rfl
@[simp] theorem turnOver_kpdInit (s : State) : s.turnOver.kpdInit = s.kpdInit := rfl
@[simp] theorem turnOver_lcdInit (s : State) : s.turnOver.lcdInit = s.lcdInit := rfl
@[simp] theorem turnOver_refused (s : State) : s.turnOver.refused = s.refused := rfl
@[simp] theorem turnOver_faults (s : State) : s.turnOver.faults = s.faults := rfl
@[simp] theorem turnOver_lvl (s : State) : s.turnOver.lvl = s.lvl := rfl
@[simp] theorem turnOver_devBusy (s : State) : s.turnOver.devBusy = s.devBusy := rfl
@[simp] theorem turnOver_dev (s : State) : s.turnOver.dev = s.dev := rfl
@[simp] theorem turnOver_vram (s : State) : s.turnOver.vram = s.vram := rfl
@[simp] theorem turnOver_anyLatch (s : State) : s.turnOver.anyLatch = s.anyLatch := rfl
@[simp] theorem turnOver_keys (s : State) : s.turnOver.keys = s.keys := rfl
@[simp] theorem turnOver_bouncing (s : State) : s.turnOver.bouncing = s.bouncing := rfl
@[simp] theorem turnOver_spoiled (s : State) : s.turnOver.spoiled = s.spoiled := rfl
@[simp] theorem turnOver_lcdPowered (s : State) : s.turnOver.lcdPowered = s.lcdPowered := rfl
@[simp] theorem turnOver_result (s : State) : s.turnOver.result = s.result := rfl
@[simp] theorem turnOver_events (s : State) : s.turnOver.events = s.events := rfl
@[simp] theorem turnOver_port (s : State) : s.turnOver.port = s.port := rfl
@[simp] theorem turnOver_sched (s : State) : s.turnOver.sched = s.sched := rfl
@[simp] theorem turnOver_draws (s : State) : s.turnOver.draws = s.draws := rfl

@[simp] theorem directed_cfg (s : State) (u : Upd) : (s.directed u).cfg = s.cfg := rfl
@[simp] theorem directed_slot (s : State) (u : Upd) : (s.directed u).slot = s.slot := rfl
@[simp] theorem directed_lut (s : State) (u : Upd) : (s.directed u).lut = s.lut := rfl
@[simp] theorem directed_lutInstalled (s : State) (u : Upd) : (s.directed u).lutInstalled = s.lutInstalled := rfl
@[simp] theorem directed_regs (s : State) (u : Upd) : (s.directed u).regs = s.regs := rfl
@[simp] theorem directed_fgpos (s : State) (u : Upd) : (s.directed u).fgpos = s.fgpos := rfl
@[simp] theorem directed_fgT (s : State) (u : Upd) : (s.directed u).fgT = s.fgT := rfl
@[simp] theorem directed_fgV (s : State) (u : Upd) : (s.directed u).fgV = s.fgV := rfl
@[simp] theorem directed_isrpos (s : State) (u : Upd) : (s.directed u).isrpos = s.isrpos := rfl
@[simp] theorem directed_isrT (s : State) (u : Upd) : (s.directed u).isrT = s.isrT := rfl
@[simp] theorem directed_isrS (s : State) (u : Upd) : (s.directed u).isrS = s.isrS := rfl
@[simp] theorem directed_isrR (s : State) (u : Upd) : (s.directed u).isrR = s.isrR := rfl
@[simp] theorem directed_kpdInit (s : State) (u : Upd) : (s.directed u).kpdInit = s.kpdInit := rfl
@[simp] theorem directed_lcdInit (s : State) (u : Upd) : (s.directed u).lcdInit = s.lcdInit := rfl
@[simp] theorem directed_refused (s : State) (u : Upd) : (s.directed u).refused = s.refused := rfl
@[simp] theorem directed_faults (s : State) (u : Upd) : (s.directed u).faults = s.faults := rfl
@[simp] theorem directed_lvl (s : State) (u : Upd) : (s.directed u).lvl = s.lvl := rfl
@[simp] theorem directed_devBusy (s : State) (u : Upd) : (s.directed u).devBusy = s.devBusy := rfl
@[simp] theorem directed_dev (s : State) (u : Upd) : (s.directed u).dev = s.dev := rfl
@[simp] theorem directed_vram (s : State) (u : Upd) : (s.directed u).vram = s.vram := rfl
@[simp] theorem directed_anyLatch (s : State) (u : Upd) : (s.directed u).anyLatch = s.anyLatch := rfl
@[simp] theorem directed_keys (s : State) (u : Upd) : (s.directed u).keys = s.keys := rfl
@[simp] theorem directed_bouncing (s : State) (u : Upd) : (s.directed u).bouncing = s.bouncing := rfl
@[simp] theorem directed_spoiled (s : State) (u : Upd) : (s.directed u).spoiled = s.spoiled := rfl
@[simp] theorem directed_lcdPowered (s : State) (u : Upd) : (s.directed u).lcdPowered = s.lcdPowered := rfl
@[simp] theorem directed_result (s : State) (u : Upd) : (s.directed u).result = s.result := rfl
@[simp] theorem directed_events (s : State) (u : Upd) : (s.directed u).events = s.events := rfl
@[simp] theorem directed_port (s : State) (u : Upd) : (s.directed u).port = s.port := rfl
@[simp] theorem directed_sched (s : State) (u : Upd) : (s.directed u).sched = s.sched := rfl
@[simp] theorem directed_quantum (s : State) (u : Upd) : (s.directed u).quantum = s.quantum := rfl
@[simp] theorem directed_draws (s : State) (u : Upd) : (s.directed u).draws = s.draws := rfl

@[simp] theorem enterHandler_cfg (c : Col) (s : State) : (enterHandler c s).cfg = s.cfg := rfl
@[simp] theorem enterHandler_slot (c : Col) (s : State) : (enterHandler c s).slot = s.slot := rfl
@[simp] theorem enterHandler_lut (c : Col) (s : State) : (enterHandler c s).lut = s.lut := rfl
@[simp] theorem enterHandler_lutInstalled (c : Col) (s : State) : (enterHandler c s).lutInstalled = s.lutInstalled := rfl
@[simp] theorem enterHandler_regs (c : Col) (s : State) : (enterHandler c s).regs = s.regs := rfl
@[simp] theorem enterHandler_highOut (c : Col) (s : State) : (enterHandler c s).highOut = s.highOut := rfl
@[simp] theorem enterHandler_fgpos (c : Col) (s : State) : (enterHandler c s).fgpos = s.fgpos := rfl
@[simp] theorem enterHandler_fgT (c : Col) (s : State) : (enterHandler c s).fgT = s.fgT := rfl
@[simp] theorem enterHandler_fgV (c : Col) (s : State) : (enterHandler c s).fgV = s.fgV := rfl
@[simp] theorem enterHandler_isrT (c : Col) (s : State) : (enterHandler c s).isrT = s.isrT := rfl
@[simp] theorem enterHandler_isrS (c : Col) (s : State) : (enterHandler c s).isrS = s.isrS := rfl
@[simp] theorem enterHandler_isrR (c : Col) (s : State) : (enterHandler c s).isrR = s.isrR := rfl
@[simp] theorem enterHandler_kpdInit (c : Col) (s : State) : (enterHandler c s).kpdInit = s.kpdInit := rfl
@[simp] theorem enterHandler_lcdInit (c : Col) (s : State) : (enterHandler c s).lcdInit = s.lcdInit := rfl
@[simp] theorem enterHandler_refused (c : Col) (s : State) : (enterHandler c s).refused = s.refused := rfl
@[simp] theorem enterHandler_faults (c : Col) (s : State) : (enterHandler c s).faults = s.faults := rfl
@[simp] theorem enterHandler_lvl (c : Col) (s : State) : (enterHandler c s).lvl = s.lvl := rfl
@[simp] theorem enterHandler_devBusy (c : Col) (s : State) : (enterHandler c s).devBusy = s.devBusy := rfl
@[simp] theorem enterHandler_dev (c : Col) (s : State) : (enterHandler c s).dev = s.dev := rfl
@[simp] theorem enterHandler_vram (c : Col) (s : State) : (enterHandler c s).vram = s.vram := rfl
@[simp] theorem enterHandler_anyLatch (c : Col) (s : State) : (enterHandler c s).anyLatch = s.anyLatch := rfl
@[simp] theorem enterHandler_keys (c : Col) (s : State) : (enterHandler c s).keys = s.keys := rfl
@[simp] theorem enterHandler_bouncing (c : Col) (s : State) : (enterHandler c s).bouncing = s.bouncing := rfl
@[simp] theorem enterHandler_spoiled (c : Col) (s : State) : (enterHandler c s).spoiled = s.spoiled := rfl
@[simp] theorem enterHandler_lcdPowered (c : Col) (s : State) : (enterHandler c s).lcdPowered = s.lcdPowered := rfl
@[simp] theorem enterHandler_result (c : Col) (s : State) : (enterHandler c s).result = s.result := rfl
@[simp] theorem enterHandler_events (c : Col) (s : State) : (enterHandler c s).events = s.events := rfl
@[simp] theorem enterHandler_port (c : Col) (s : State) : (enterHandler c s).port = s.port := rfl
@[simp] theorem enterHandler_sched (c : Col) (s : State) : (enterHandler c s).sched = s.sched := rfl
@[simp] theorem enterHandler_quantum (c : Col) (s : State) : (enterHandler c s).quantum = s.quantum := rfl
@[simp] theorem enterHandler_draws (c : Col) (s : State) : (enterHandler c s).draws = s.draws := rfl

@[simp] theorem returnFromHandler_cfg (s : State) : (returnFromHandler s).cfg = s.cfg := rfl
@[simp] theorem returnFromHandler_slot (s : State) : (returnFromHandler s).slot = s.slot := rfl
@[simp] theorem returnFromHandler_lut (s : State) : (returnFromHandler s).lut = s.lut := rfl
@[simp] theorem returnFromHandler_lutInstalled (s : State) : (returnFromHandler s).lutInstalled = s.lutInstalled := rfl
@[simp] theorem returnFromHandler_regs (s : State) : (returnFromHandler s).regs = s.regs := rfl
@[simp] theorem returnFromHandler_highOut (s : State) : (returnFromHandler s).highOut = s.highOut := rfl
@[simp] theorem returnFromHandler_fgpos (s : State) : (returnFromHandler s).fgpos = s.fgpos := rfl
@[simp] theorem returnFromHandler_fgT (s : State) : (returnFromHandler s).fgT = s.fgT := rfl
@[simp] theorem returnFromHandler_fgV (s : State) : (returnFromHandler s).fgV = s.fgV := rfl
@[simp] theorem returnFromHandler_isrT (s : State) : (returnFromHandler s).isrT = s.isrT := rfl
@[simp] theorem returnFromHandler_isrS (s : State) : (returnFromHandler s).isrS = s.isrS := rfl
@[simp] theorem returnFromHandler_isrR (s : State) : (returnFromHandler s).isrR = s.isrR := rfl
@[simp] theorem returnFromHandler_kpdInit (s : State) : (returnFromHandler s).kpdInit = s.kpdInit := rfl
@[simp] theorem returnFromHandler_lcdInit (s : State) : (returnFromHandler s).lcdInit = s.lcdInit := rfl
@[simp] theorem returnFromHandler_refused (s : State) : (returnFromHandler s).refused = s.refused := rfl
@[simp] theorem returnFromHandler_faults (s : State) : (returnFromHandler s).faults = s.faults := rfl
@[simp] theorem returnFromHandler_lvl (s : State) : (returnFromHandler s).lvl = s.lvl := rfl
@[simp] theorem returnFromHandler_devBusy (s : State) : (returnFromHandler s).devBusy = s.devBusy := rfl
@[simp] theorem returnFromHandler_dev (s : State) : (returnFromHandler s).dev = s.dev := rfl
@[simp] theorem returnFromHandler_vram (s : State) : (returnFromHandler s).vram = s.vram := rfl
@[simp] theorem returnFromHandler_anyLatch (s : State) : (returnFromHandler s).anyLatch = s.anyLatch := rfl
@[simp] theorem returnFromHandler_keys (s : State) : (returnFromHandler s).keys = s.keys := rfl
@[simp] theorem returnFromHandler_bouncing (s : State) : (returnFromHandler s).bouncing = s.bouncing := rfl
@[simp] theorem returnFromHandler_spoiled (s : State) : (returnFromHandler s).spoiled = s.spoiled := rfl
@[simp] theorem returnFromHandler_lcdPowered (s : State) : (returnFromHandler s).lcdPowered = s.lcdPowered := rfl
@[simp] theorem returnFromHandler_result (s : State) : (returnFromHandler s).result = s.result := rfl
@[simp] theorem returnFromHandler_events (s : State) : (returnFromHandler s).events = s.events := rfl
@[simp] theorem returnFromHandler_port (s : State) : (returnFromHandler s).port = s.port := rfl
@[simp] theorem returnFromHandler_sched (s : State) : (returnFromHandler s).sched = s.sched := rfl
@[simp] theorem returnFromHandler_quantum (s : State) : (returnFromHandler s).quantum = s.quantum := rfl
@[simp] theorem returnFromHandler_draws (s : State) : (returnFromHandler s).draws = s.draws := rfl

@[simp] theorem latched_cfg (s : State) (w : BusWord) : (s.latched w).cfg = s.cfg := rfl
@[simp] theorem latched_slot (s : State) (w : BusWord) : (s.latched w).slot = s.slot := rfl
@[simp] theorem latched_lut (s : State) (w : BusWord) : (s.latched w).lut = s.lut := rfl
@[simp] theorem latched_lutInstalled (s : State) (w : BusWord) : (s.latched w).lutInstalled = s.lutInstalled := rfl
@[simp] theorem latched_regs (s : State) (w : BusWord) : (s.latched w).regs = s.regs := rfl
@[simp] theorem latched_highOut (s : State) (w : BusWord) : (s.latched w).highOut = s.highOut := rfl
@[simp] theorem latched_fgpos (s : State) (w : BusWord) : (s.latched w).fgpos = s.fgpos := rfl
@[simp] theorem latched_fgT (s : State) (w : BusWord) : (s.latched w).fgT = s.fgT := rfl
@[simp] theorem latched_fgV (s : State) (w : BusWord) : (s.latched w).fgV = s.fgV := rfl
@[simp] theorem latched_isrpos (s : State) (w : BusWord) : (s.latched w).isrpos = s.isrpos := rfl
@[simp] theorem latched_isrT (s : State) (w : BusWord) : (s.latched w).isrT = s.isrT := rfl
@[simp] theorem latched_isrS (s : State) (w : BusWord) : (s.latched w).isrS = s.isrS := rfl
@[simp] theorem latched_isrR (s : State) (w : BusWord) : (s.latched w).isrR = s.isrR := rfl
@[simp] theorem latched_kpdInit (s : State) (w : BusWord) : (s.latched w).kpdInit = s.kpdInit := rfl
@[simp] theorem latched_lcdInit (s : State) (w : BusWord) : (s.latched w).lcdInit = s.lcdInit := rfl
@[simp] theorem latched_refused (s : State) (w : BusWord) : (s.latched w).refused = s.refused := rfl
@[simp] theorem latched_faults (s : State) (w : BusWord) : (s.latched w).faults = s.faults := rfl
@[simp] theorem latched_lvl (s : State) (w : BusWord) : (s.latched w).lvl = s.lvl := rfl
@[simp] theorem latched_dev (s : State) (w : BusWord) : (s.latched w).dev = s.dev := rfl
@[simp] theorem latched_vram (s : State) (w : BusWord) : (s.latched w).vram = s.vram := rfl
@[simp] theorem latched_keys (s : State) (w : BusWord) : (s.latched w).keys = s.keys := rfl
@[simp] theorem latched_bouncing (s : State) (w : BusWord) : (s.latched w).bouncing = s.bouncing := rfl
@[simp] theorem latched_spoiled (s : State) (w : BusWord) : (s.latched w).spoiled = s.spoiled := rfl
@[simp] theorem latched_lcdPowered (s : State) (w : BusWord) : (s.latched w).lcdPowered = s.lcdPowered := rfl
@[simp] theorem latched_result (s : State) (w : BusWord) : (s.latched w).result = s.result := rfl
@[simp] theorem latched_port (s : State) (w : BusWord) : (s.latched w).port = s.port := rfl
@[simp] theorem latched_sched (s : State) (w : BusWord) : (s.latched w).sched = s.sched := rfl
@[simp] theorem latched_quantum (s : State) (w : BusWord) : (s.latched w).quantum = s.quantum := rfl
@[simp] theorem latched_draws (s : State) (w : BusWord) : (s.latched w).draws = s.draws := rfl

@[simp] theorem marked_cfg (s : State) (fs : List FaultRecord) : (s.marked fs).cfg = s.cfg := rfl
@[simp] theorem marked_slot (s : State) (fs : List FaultRecord) : (s.marked fs).slot = s.slot := rfl
@[simp] theorem marked_lut (s : State) (fs : List FaultRecord) : (s.marked fs).lut = s.lut := rfl
@[simp] theorem marked_lutInstalled (s : State) (fs : List FaultRecord) : (s.marked fs).lutInstalled = s.lutInstalled := rfl
@[simp] theorem marked_regs (s : State) (fs : List FaultRecord) : (s.marked fs).regs = s.regs := rfl
@[simp] theorem marked_highOut (s : State) (fs : List FaultRecord) : (s.marked fs).highOut = s.highOut := rfl
@[simp] theorem marked_fgpos (s : State) (fs : List FaultRecord) : (s.marked fs).fgpos = s.fgpos := rfl
@[simp] theorem marked_fgT (s : State) (fs : List FaultRecord) : (s.marked fs).fgT = s.fgT := rfl
@[simp] theorem marked_fgV (s : State) (fs : List FaultRecord) : (s.marked fs).fgV = s.fgV := rfl
@[simp] theorem marked_isrpos (s : State) (fs : List FaultRecord) : (s.marked fs).isrpos = s.isrpos := rfl
@[simp] theorem marked_isrT (s : State) (fs : List FaultRecord) : (s.marked fs).isrT = s.isrT := rfl
@[simp] theorem marked_isrS (s : State) (fs : List FaultRecord) : (s.marked fs).isrS = s.isrS := rfl
@[simp] theorem marked_isrR (s : State) (fs : List FaultRecord) : (s.marked fs).isrR = s.isrR := rfl
@[simp] theorem marked_kpdInit (s : State) (fs : List FaultRecord) : (s.marked fs).kpdInit = s.kpdInit := rfl
@[simp] theorem marked_lcdInit (s : State) (fs : List FaultRecord) : (s.marked fs).lcdInit = s.lcdInit := rfl
@[simp] theorem marked_refused (s : State) (fs : List FaultRecord) : (s.marked fs).refused = s.refused := rfl
@[simp] theorem marked_lvl (s : State) (fs : List FaultRecord) : (s.marked fs).lvl = s.lvl := rfl
@[simp] theorem marked_devBusy (s : State) (fs : List FaultRecord) : (s.marked fs).devBusy = s.devBusy := rfl
@[simp] theorem marked_dev (s : State) (fs : List FaultRecord) : (s.marked fs).dev = s.dev := rfl
@[simp] theorem marked_vram (s : State) (fs : List FaultRecord) : (s.marked fs).vram = s.vram := rfl
@[simp] theorem marked_anyLatch (s : State) (fs : List FaultRecord) : (s.marked fs).anyLatch = s.anyLatch := rfl
@[simp] theorem marked_keys (s : State) (fs : List FaultRecord) : (s.marked fs).keys = s.keys := rfl
@[simp] theorem marked_bouncing (s : State) (fs : List FaultRecord) : (s.marked fs).bouncing = s.bouncing := rfl
@[simp] theorem marked_spoiled (s : State) (fs : List FaultRecord) : (s.marked fs).spoiled = s.spoiled := rfl
@[simp] theorem marked_lcdPowered (s : State) (fs : List FaultRecord) : (s.marked fs).lcdPowered = s.lcdPowered := rfl
@[simp] theorem marked_result (s : State) (fs : List FaultRecord) : (s.marked fs).result = s.result := rfl
@[simp] theorem marked_events (s : State) (fs : List FaultRecord) : (s.marked fs).events = s.events := rfl
@[simp] theorem marked_port (s : State) (fs : List FaultRecord) : (s.marked fs).port = s.port := rfl
@[simp] theorem marked_sched (s : State) (fs : List FaultRecord) : (s.marked fs).sched = s.sched := rfl
@[simp] theorem marked_quantum (s : State) (fs : List FaultRecord) : (s.marked fs).quantum = s.quantum := rfl
@[simp] theorem marked_draws (s : State) (fs : List FaultRecord) : (s.marked fs).draws = s.draws := rfl

@[simp] theorem settleDelay_cfg (s : State) (rs : Bool) (b : Byte) : (s.settleDelay rs b).cfg = s.cfg := rfl
@[simp] theorem settleDelay_slot (s : State) (rs : Bool) (b : Byte) : (s.settleDelay rs b).slot = s.slot := rfl
@[simp] theorem settleDelay_lut (s : State) (rs : Bool) (b : Byte) : (s.settleDelay rs b).lut = s.lut := rfl
@[simp] theorem settleDelay_lutInstalled (s : State) (rs : Bool) (b : Byte) : (s.settleDelay rs b).lutInstalled = s.lutInstalled := rfl
@[simp] theorem settleDelay_regs (s : State) (rs : Bool) (b : Byte) : (s.settleDelay rs b).regs = s.regs := rfl
@[simp] theorem settleDelay_highOut (s : State) (rs : Bool) (b : Byte) : (s.settleDelay rs b).highOut = s.highOut := rfl
@[simp] theorem settleDelay_fgpos (s : State) (rs : Bool) (b : Byte) : (s.settleDelay rs b).fgpos = s.fgpos := rfl
@[simp] theorem settleDelay_fgT (s : State) (rs : Bool) (b : Byte) : (s.settleDelay rs b).fgT = s.fgT := rfl
@[simp] theorem settleDelay_fgV (s : State) (rs : Bool) (b : Byte) : (s.settleDelay rs b).fgV = s.fgV := rfl
@[simp] theorem settleDelay_isrpos (s : State) (rs : Bool) (b : Byte) : (s.settleDelay rs b).isrpos = s.isrpos := rfl
@[simp] theorem settleDelay_isrT (s : State) (rs : Bool) (b : Byte) : (s.settleDelay rs b).isrT = s.isrT := rfl
@[simp] theorem settleDelay_isrS (s : State) (rs : Bool) (b : Byte) : (s.settleDelay rs b).isrS = s.isrS := rfl
@[simp] theorem settleDelay_isrR (s : State) (rs : Bool) (b : Byte) : (s.settleDelay rs b).isrR = s.isrR := rfl
@[simp] theorem settleDelay_kpdInit (s : State) (rs : Bool) (b : Byte) : (s.settleDelay rs b).kpdInit = s.kpdInit := rfl
@[simp] theorem settleDelay_lcdInit (s : State) (rs : Bool) (b : Byte) : (s.settleDelay rs b).lcdInit = s.lcdInit := rfl
@[simp] theorem settleDelay_refused (s : State) (rs : Bool) (b : Byte) : (s.settleDelay rs b).refused = s.refused := rfl
@[simp] theorem settleDelay_faults (s : State) (rs : Bool) (b : Byte) : (s.settleDelay rs b).faults = s.faults := rfl
@[simp] theorem settleDelay_lvl (s : State) (rs : Bool) (b : Byte) : (s.settleDelay rs b).lvl = s.lvl := rfl
@[simp] theorem settleDelay_dev (s : State) (rs : Bool) (b : Byte) : (s.settleDelay rs b).dev = s.dev := rfl
@[simp] theorem settleDelay_vram (s : State) (rs : Bool) (b : Byte) : (s.settleDelay rs b).vram = s.vram := rfl
@[simp] theorem settleDelay_anyLatch (s : State) (rs : Bool) (b : Byte) : (s.settleDelay rs b).anyLatch = s.anyLatch := rfl
@[simp] theorem settleDelay_keys (s : State) (rs : Bool) (b : Byte) : (s.settleDelay rs b).keys = s.keys := rfl
@[simp] theorem settleDelay_bouncing (s : State) (rs : Bool) (b : Byte) : (s.settleDelay rs b).bouncing = s.bouncing := rfl
@[simp] theorem settleDelay_spoiled (s : State) (rs : Bool) (b : Byte) : (s.settleDelay rs b).spoiled = s.spoiled := rfl
@[simp] theorem settleDelay_lcdPowered (s : State) (rs : Bool) (b : Byte) : (s.settleDelay rs b).lcdPowered = s.lcdPowered := rfl
@[simp] theorem settleDelay_result (s : State) (rs : Bool) (b : Byte) : (s.settleDelay rs b).result = s.result := rfl
@[simp] theorem settleDelay_port (s : State) (rs : Bool) (b : Byte) : (s.settleDelay rs b).port = s.port := rfl
@[simp] theorem settleDelay_sched (s : State) (rs : Bool) (b : Byte) : (s.settleDelay rs b).sched = s.sched := rfl
@[simp] theorem settleDelay_quantum (s : State) (rs : Bool) (b : Byte) : (s.settleDelay rs b).quantum = s.quantum := rfl
@[simp] theorem settleDelay_draws (s : State) (rs : Bool) (b : Byte) : (s.settleDelay rs b).draws = s.draws := rfl

@[simp] theorem strayCursor_cfg (s : State) : s.strayCursor.cfg = s.cfg := by unfold State.strayCursor; split <;> rfl
@[simp] theorem strayCursor_slot (s : State) : s.strayCursor.slot = s.slot := by unfold State.strayCursor; split <;> rfl
@[simp] theorem strayCursor_lut (s : State) : s.strayCursor.lut = s.lut := by unfold State.strayCursor; split <;> rfl
@[simp] theorem strayCursor_lutInstalled (s : State) : s.strayCursor.lutInstalled = s.lutInstalled := by unfold State.strayCursor; split <;> rfl
@[simp] theorem strayCursor_regs (s : State) : s.strayCursor.regs = s.regs := by unfold State.strayCursor; split <;> rfl
@[simp] theorem strayCursor_highOut (s : State) : s.strayCursor.highOut = s.highOut := by unfold State.strayCursor; split <;> rfl
@[simp] theorem strayCursor_fgpos (s : State) : s.strayCursor.fgpos = s.fgpos := by unfold State.strayCursor; split <;> rfl
@[simp] theorem strayCursor_fgT (s : State) : s.strayCursor.fgT = s.fgT := by unfold State.strayCursor; split <;> rfl
@[simp] theorem strayCursor_fgV (s : State) : s.strayCursor.fgV = s.fgV := by unfold State.strayCursor; split <;> rfl
@[simp] theorem strayCursor_isrpos (s : State) : s.strayCursor.isrpos = s.isrpos := by unfold State.strayCursor; split <;> rfl
@[simp] theorem strayCursor_isrT (s : State) : s.strayCursor.isrT = s.isrT := by unfold State.strayCursor; split <;> rfl
@[simp] theorem strayCursor_isrS (s : State) : s.strayCursor.isrS = s.isrS := by unfold State.strayCursor; split <;> rfl
@[simp] theorem strayCursor_isrR (s : State) : s.strayCursor.isrR = s.isrR := by unfold State.strayCursor; split <;> rfl
@[simp] theorem strayCursor_kpdInit (s : State) : s.strayCursor.kpdInit = s.kpdInit := by unfold State.strayCursor; split <;> rfl
@[simp] theorem strayCursor_lcdInit (s : State) : s.strayCursor.lcdInit = s.lcdInit := by unfold State.strayCursor; split <;> rfl
@[simp] theorem strayCursor_refused (s : State) : s.strayCursor.refused = s.refused := by unfold State.strayCursor; split <;> rfl
@[simp] theorem strayCursor_faults (s : State) : s.strayCursor.faults = s.faults := by unfold State.strayCursor; split <;> rfl
@[simp] theorem strayCursor_lvl (s : State) : s.strayCursor.lvl = s.lvl := by unfold State.strayCursor; split <;> rfl
@[simp] theorem strayCursor_devBusy (s : State) : s.strayCursor.devBusy = s.devBusy := by unfold State.strayCursor; split <;> rfl
@[simp] theorem strayCursor_vram (s : State) : s.strayCursor.vram = s.vram := by unfold State.strayCursor; split <;> rfl
@[simp] theorem strayCursor_anyLatch (s : State) : s.strayCursor.anyLatch = s.anyLatch := by unfold State.strayCursor; split <;> rfl
@[simp] theorem strayCursor_keys (s : State) : s.strayCursor.keys = s.keys := by unfold State.strayCursor; split <;> rfl
@[simp] theorem strayCursor_bouncing (s : State) : s.strayCursor.bouncing = s.bouncing := by unfold State.strayCursor; split <;> rfl
@[simp] theorem strayCursor_spoiled (s : State) : s.strayCursor.spoiled = s.spoiled := by unfold State.strayCursor; split <;> rfl
@[simp] theorem strayCursor_lcdPowered (s : State) : s.strayCursor.lcdPowered = s.lcdPowered := by unfold State.strayCursor; split <;> rfl
@[simp] theorem strayCursor_result (s : State) : s.strayCursor.result = s.result := by unfold State.strayCursor; split <;> rfl
@[simp] theorem strayCursor_events (s : State) : s.strayCursor.events = s.events := by unfold State.strayCursor; split <;> rfl
@[simp] theorem strayCursor_port (s : State) : s.strayCursor.port = s.port := by unfold State.strayCursor; split <;> rfl
@[simp] theorem strayCursor_sched (s : State) : s.strayCursor.sched = s.sched := by unfold State.strayCursor; split <;> rfl
@[simp] theorem strayCursor_quantum (s : State) : s.strayCursor.quantum = s.quantum := by unfold State.strayCursor; split <;> rfl

@[simp] theorem settle_regs_clken (s : State) : s.settle.regs.clken = s.regs.clken := rfl
@[simp] theorem settle_regs_mode (s : State) : s.settle.regs.mode = s.regs.mode := rfl
@[simp] theorem settle_regs_pull (s : State) : s.settle.regs.pull = s.regs.pull := rfl
@[simp] theorem settle_regs_odr (s : State) : s.settle.regs.odr = s.regs.odr := rfl
@[simp] theorem settle_regs_mux (s : State) : s.settle.regs.mux = s.regs.mux := rfl
@[simp] theorem settle_regs_imr (s : State) : s.settle.regs.imr = s.regs.imr := rfl
@[simp] theorem settle_regs_rtsr (s : State) : s.settle.regs.rtsr = s.regs.rtsr := rfl
@[simp] theorem settle_regs_irqen (s : State) : s.settle.regs.irqen = s.regs.irqen := rfl
@[simp] theorem settle_regs_lmode (s : State) : s.settle.regs.lmode = s.regs.lmode := rfl
@[simp] theorem settle_regs_lodr (s : State) : s.settle.regs.lodr = s.regs.lodr := rfl

@[simp] theorem settle_regs_pr (s : State) : s.settle.regs.pr = s.regs.pr ||| edges s.spoil := rfl
@[simp] theorem settle_draws (s : State) : s.settle.draws = s.draws + 1 := rfl
@[simp] theorem settle_spoiled (s : State) : s.settle.spoiled = s.spoiled ||| reservedPins s.regs.mode := rfl
@[simp] theorem turnOver_quantum (s : State) : s.turnOver.quantum = none := rfl
@[simp] theorem enterHandler_isrpos (c : Col) (s : State) :
    (enterHandler c s).isrpos = some { col := c, k := 1 } := rfl
@[simp] theorem returnFromHandler_isrpos (s : State) : (returnFromHandler s).isrpos = none := rfl
@[simp] theorem latched_events (s : State) (w : BusWord) : (s.latched w).events = s.events ++ [.latch w] := rfl
@[simp] theorem latched_anyLatch (s : State) (w : BusWord) : (s.latched w).anyLatch = true := rfl
@[simp] theorem latched_devBusy (s : State) (w : BusWord) : (s.latched w).devBusy = busyClass w := rfl
@[simp] theorem marked_faults (s : State) (fs : List FaultRecord) : (s.marked fs).faults = s.faults ++ fs := rfl
@[simp] theorem leaving_left (f : FaultRecord) (t : State) : (f.leaving t).left = t := by cases f <;> rfl
@[simp] theorem leaving_record (f : FaultRecord) (t : State) : (f.leaving t).record = f := by cases f <;> rfl
@[simp] theorem record_leaving_left (f : Fault) : f.record.leaving f.left = f := by cases f <;> rfl
@[simp] theorem directed_highOut (s : State) (u : Upd) :
    (s.directed u).highOut = (s.highOut || u == .lcdOutput) := rfl
@[simp] theorem settleDelay_events (s : State) (rs : Bool) (b : Byte) :
    (s.settleDelay rs b).events = s.events ++ [.delay (settleTime s.cfg rs b)] := rfl
@[simp] theorem settleDelay_devBusy (s : State) (rs : Bool) (b : Byte) :
    (s.settleDelay rs b).devBusy
      = if covers s.cfg s.devBusy (settleTime s.cfg rs b) then .free else s.devBusy := rfl
theorem strayCursor_of_twoLine (s : State) (h : s.dev.n = true) : s.strayCursor = s := by
  simp [State.strayCursor, h]
@[simp] theorem strayCursor_dev_space (s : State) : s.strayCursor.dev.space = s.dev.space := by
  unfold State.strayCursor; split <;> rfl
@[simp] theorem strayCursor_dev_cgaddr (s : State) : s.strayCursor.dev.cgaddr = s.dev.cgaddr := by
  unfold State.strayCursor; split <;> rfl
@[simp] theorem strayCursor_dev_d (s : State) : s.strayCursor.dev.d = s.dev.d := by
  unfold State.strayCursor; split <;> rfl
@[simp] theorem strayCursor_dev_c (s : State) : s.strayCursor.dev.c = s.dev.c := by
  unfold State.strayCursor; split <;> rfl
@[simp] theorem strayCursor_dev_b (s : State) : s.strayCursor.dev.b = s.dev.b := by
  unfold State.strayCursor; split <;> rfl
@[simp] theorem strayCursor_dev_id (s : State) : s.strayCursor.dev.id = s.dev.id := by
  unfold State.strayCursor; split <;> rfl
@[simp] theorem strayCursor_dev_sh (s : State) : s.strayCursor.dev.sh = s.dev.sh := by
  unfold State.strayCursor; split <;> rfl
@[simp] theorem strayCursor_dev_dl (s : State) : s.strayCursor.dev.dl = s.dev.dl := by
  unfold State.strayCursor; split <;> rfl
@[simp] theorem strayCursor_dev_n (s : State) : s.strayCursor.dev.n = s.dev.n := by
  unfold State.strayCursor; split <;> rfl
@[simp] theorem strayCursor_dev_f (s : State) : s.strayCursor.dev.f = s.dev.f := by
  unfold State.strayCursor; split <;> rfl
@[simp] theorem strayCursor_dev_shift (s : State) : s.strayCursor.dev.shift = s.dev.shift := by
  unfold State.strayCursor; split <;> rfl
@[simp] theorem strayCursor_dev_nibble (s : State) : s.strayCursor.dev.nibble = s.dev.nibble := by
  unfold State.strayCursor; split <;> rfl

end Sys2Proof.Machine
end

