-- ==== Sys2Proof/Laws/Ops.lean ====
section
/-! SUPPORT. Once for each shared operation: what it can do. Register access, the LCD lines, the device's latch, the
edge detector, taking a column interrupt, and the micro-steps built on them. -/

namespace Sys2Proof.Machine

variable {s t : State}

/-! ### Register access (R37, R81, R82) -/

/-- A read answers the role's value where its clock runs, and faults where it does not. -/
theorem regRead_cases (r : Role) (s : State) :
    (clocked s r = true ∧ regRead r s = .ok (roleValue s r)) ∨
    (clocked s r = false ∧ regRead r s = .error (.clockGated r s.pos (s.marked [.clockGated r s.pos]))) := by
  cases h : clocked s r <;> simp [regRead, h]

/-- A write stores the value where the role's clock runs and is not `IDR`, and else stops by name. -/
theorem regWrite_cases (r : Role) (v : Word) (s : State) :
    (clocked s r = true ∧ r ≠ .idr ∧
      regWrite r v s = .next { s with regs := storeRole s.cfg.lcdShares r v s.regs }) ∨
    (clocked s r = true ∧ r = .idr ∧ regWrite r v s = .refused (.writeReadOnly r s.pos)) ∨
    (clocked s r = false ∧ regWrite r v s = .fault (.clockGated r s.pos (s.marked [.clockGated r s.pos]))) := by
  by_cases hr : r = .idr
  · subst hr
    cases h : clocked s .idr <;> simp [regWrite, h]
  · cases h : clocked s r <;> simp [regWrite, h, hr]

/-- Where a write answers a next state, the role's storage changed and nothing else. -/
theorem regWrite_next {r : Role} {v : Word} (h : regWrite r v s = .next t) :
    t = { s with regs := storeRole s.cfg.lcdShares r v s.regs } := by
  rcases regWrite_cases r v s with ⟨-, -, h'⟩ | ⟨-, -, h'⟩ | ⟨-, h'⟩ <;> rw [h'] at h <;> cases h
  rfl

/-- Writing back what was read changes no register, but that a written 1 of `PR` clears its bit (R45, R82). -/
theorem storeRole_roleValue (r : Role) (hr : r ≠ .idr) (hp : r ≠ .pr) (s : State) :
    storeRole s.cfg.lcdShares r (roleValue s r) s.regs = s.regs := by
  cases h : s.cfg.lcdShares <;> cases r <;>
    first
    | exact absurd rfl hr
    | exact absurd rfl hp
    | simp [storeRole, roleValue, portRole, Regs.get, Regs.set, h]

/-- An update's write changes the role's storage, and I2's the lines without a field; or it stops as the write does. -/
theorem regUpdate_cases (r : Role) (u : Upd) (w : Word) (s : State) :
    (clocked s r = true ∧ r ≠ .idr ∧ regUpdate r u w s
      = .next (State.directed { s with regs := storeRole s.cfg.lcdShares r (u.apply s.cfg w) s.regs } u)) ∨
    (clocked s r = true ∧ r = .idr ∧ regUpdate r u w s = .refused (.writeReadOnly r s.pos)) ∨
    (clocked s r = false ∧ regUpdate r u w s = .fault (.clockGated r s.pos (s.marked [.clockGated r s.pos]))) := by
  rcases regWrite_cases r (u.apply s.cfg w) s with ⟨h, hr, h'⟩ | ⟨h, hr, h'⟩ | ⟨h, h'⟩
  · exact .inl ⟨h, hr, by rw [regUpdate, h']⟩
  · exact .inr (.inl ⟨h, hr, by rw [regUpdate, h']⟩)
  · exact .inr (.inr ⟨h, by rw [regUpdate, h']⟩)

/-- Where it answers a next state, that is all that changed. -/
theorem regUpdate_next {r : Role} {u : Upd} {w : Word} (h : regUpdate r u w s = .next t) :
    t = State.directed { s with regs := storeRole s.cfg.lcdShares r (u.apply s.cfg w) s.regs } u := by
  rcases regUpdate_cases r u w s with ⟨-, -, h'⟩ | ⟨-, -, h'⟩ | ⟨-, h'⟩ <;> rw [h'] at h <;> cases h
  rfl

/-- A change of an LCD line goes through the output register, whose clock must run (R48, R314). -/
theorem busLine_cases (f : Word → Word) (s : State) :
    (clocked s .lodr = true ∧
      busLine f s = .next { s with
        regs := s.regs.set (portRole s.cfg.lcdShares .lodr) (f (lcdOut s)) }) ∨
    (clocked s .lodr = false ∧
      busLine f s = .fault (.clockGated .lodr s.pos (s.marked [.clockGated .lodr s.pos]))) := by
  cases h : clocked s .lodr <;> cases hs : s.cfg.lcdShares <;>
    simp [busLine, regWrite, storeRole, portRole, h, hs]

/-- Where a line changes, the output register changed and nothing else. -/
theorem busLine_next {f : Word → Word} (h : busLine f s = .next t) :
    t = { s with regs := s.regs.set (portRole s.cfg.lcdShares .lodr) (f (lcdOut s)) } := by
  rcases busLine_cases f s with ⟨-, h'⟩ | ⟨-, h'⟩ <;> rw [h'] at h <;> cases h
  rfl

/-- The output register then holds the changed word. -/
theorem busLine_lcdOut {f : Word → Word} (h : busLine f s = .next t) : lcdOut t = f (lcdOut s) := by
  have : portRole s.cfg.lcdShares .lodr ≠ .idr := by cases s.cfg.lcdShares <;> decide
  rw [busLine_next h]
  exact Regs.get_set _ this _

/-! ### The latch (R220–R222, R228) -/

/-- A word has no reason to fault exactly where the device is free and in 8-bit mode. -/
theorem latchFaults_nil (w : BusWord) (s : State) :
    latchFaults w s = [] ↔ s.dev.nibble = false ∧ s.devBusy = .free := by
  cases h : s.dev.nibble <;> by_cases hb : s.devBusy = .free <;> simp [latchFaults, h, hb]

/-- The device takes a word exactly where it is free and in 8-bit mode; else it faults by name, with the word on the
trace and every reason in `faults`. -/
theorem latch_cases (w : BusWord) (f : State → State) (s : State) :
    (s.dev.nibble = false ∧ s.devBusy = .free ∧ latch w f s = .next (f (s.latched w)).strayCursor) ∨
    (s.dev.nibble = true ∧
      latch w f s = .fault (.lcdMode w s.pos ((s.latched w).marked (latchFaults w s)))) ∨
    (s.dev.nibble = false ∧ s.devBusy ≠ .free ∧
      latch w f s = .fault (.lcdBusy w s.pos ((s.latched w).marked (latchFaults w s)))) := by
  cases h : s.dev.nibble <;> by_cases hb : s.devBusy = .free <;>
    simp [latch, latchFaults, FaultRecord.leaving, h, hb]

/-- A latched word's effect is the instruction's, on the word recorded and the device busy. -/
theorem latch_next {w : BusWord} {f : State → State} (h : latch w f s = .next t) :
    s.dev.nibble = false ∧ s.devBusy = .free ∧ t = (f (s.latched w)).strayCursor := by
  rcases latch_cases w f s with ⟨h1, h2, h'⟩ | ⟨-, h'⟩ | ⟨-, -, h'⟩ <;> rw [h'] at h <;> cases h
  exact ⟨h1, h2, rfl⟩

/-- A device that is free and in 8-bit mode takes the word. -/
theorem latch_taken {w : BusWord} {f : State → State} (h1 : s.dev.nibble = false) (h2 : s.devBusy = .free) :
    latch w f s = .next (f (s.latched w)).strayCursor := by
  simp [latch, (latchFaults_nil w s).2 ⟨h1, h2⟩]

/-- `BusSet(E, b)` but for the falling edge of a driven `E` only changes the line. -/
theorem busEnable_quiet {b : Bool} (h : (enableHigh s && !b) = false) :
    busEnable b s = busLine (fun w => setBit w s.cfg.layout.lcdE.val b) s := by
  rw [busEnable, h]
  cases busLine (fun w => setBit w s.cfg.layout.lcdE.val b) s <;> rfl

/-- The falling edge of a driven `E` latches the word that the lines show at that micro-step. -/
theorem busEnable_falls (h : enableHigh s = true)
    (ht : busLine (fun w => setBit w s.cfg.layout.lcdE.val false) s = .next t) :
    busEnable false s = latchWord (busLevels t) t := by
  simp [busEnable, ht, h]

/-- A driven line shows its output bit (R48). -/
theorem lcdLevel_driven {p : PortPin} (i : Nat) (h : lcdDrives s p = true) :
    lcdLevel s p i = (lcdOut s).getLsbD p.val := by simp [lcdLevel, h]

/-- Where every data line is driven, the lines show the byte that the output bits hold. -/
theorem dataLevels_driven {b : Byte} (h : ∀ i, lcdDrives s (s.cfg.layout.dataPin i) = true)
    (hb : ∀ i, (lcdOut s).getLsbD (s.cfg.layout.dataPin i).val = b.getLsbD i.val) : dataLevels s = b := by
  simp only [dataLevels, dataBit, lcdLevel_driven _ (h _), hb]
  clear h hb
  revert b
  decide

/-- Where every line is driven, the lines show the output bits (R48, R104). -/
theorem busLevels_driven {b : Byte} (h1 : lcdDrives s s.cfg.layout.lcdRs = true)
    (h2 : lcdDrives s s.cfg.layout.lcdRw = true) (h3 : ∀ i, lcdDrives s (s.cfg.layout.dataPin i) = true)
    (hb : ∀ i, (lcdOut s).getLsbD (s.cfg.layout.dataPin i).val = b.getLsbD i.val) :
    busLevels s = busWord ((lcdOut s).getLsbD s.cfg.layout.lcdRs.val)
      ((lcdOut s).getLsbD s.cfg.layout.lcdRw.val) b := by
  rw [busLevels, dataLevels_driven h3 hb, lcdLevel_driven _ h1, lcdLevel_driven _ h2]

/-! ### The edge detector (R162) -/

/-- A bit set over the four lines is the line's own bit. -/
theorem lineBits_getLsbD (b0 b1 b2 b3 : Bool) (c : Col) :
    (maskBit 32 b0 0 ||| maskBit 32 b1 1 ||| maskBit 32 b2 2 ||| maskBit 32 b3 3).getLsbD c.val
      = #v[b0, b1, b2, b3][c] := by
  revert b0 b1 b2 b3 c
  decide

/-- Only line bits are ever latched. -/
theorem edges_shift (s : State) : edges s >>> 4 = 0 := by
  have h : ∀ b0 b1 b2 b3 : Bool,
      (maskBit 32 b0 0 ||| maskBit 32 b1 1 ||| maskBit 32 b2 2 ||| maskBit 32 b3 3) >>> 4 = 0 := by decide
  exact h _ _ _ _

/-- The pending bit an evaluation sets for line `c`. -/
theorem edges_getLsbD (s : State) (c : Col) : (edges s).getLsbD c.val = latches s c := by
  rw [edges, lineBits_getLsbD]
  fin_cases c <;> rfl

/-- An evaluation loses no pending bit and gains none above the lines. -/
theorem settle_pr_kept (s : State) :
    s.regs.pr &&& s.settle.regs.pr = s.regs.pr ∧ s.settle.regs.pr >>> 4 = s.regs.pr >>> 4 := by
  constructor
  · ext i hi
    simp only [settle_regs_pr, BitVec.getElem_and, BitVec.getElem_or]
    cases s.regs.pr[i] <;> simp
  · rw [settle_regs_pr, BitVec.ushiftRight_or_distrib, edges_shift]
    simp

/-- The levels an evaluation remembers. -/
theorem settle_lvl_get (s : State) (c : Col) : s.settle.lvl.get c = lineLevel s.spoil c := by
  fin_cases c <;> rfl

/-- With no line selected or none unmasked (and P19 false), an evaluation latches nothing. -/
theorem edges_of_masked (h : ∀ c : Col, (s.regs.rtsr.getLsbD c.val &&
    (s.regs.imr.getLsbD c.val || s.cfg.prLatchWhileMasked)) = false) : edges s = 0 := by
  have hl : ∀ c, latches s c = false := by intro c; simp [latches, h c]
  simp only [edges, hl]
  rfl

/-! ### Requests and the default scheduler (R54, R271, R275) -/

/-- Some line requests exactly where one of the four does. -/
theorem requesting_iff (s : State) : requesting s = true ↔ ∃ c, req s c = true := by
  constructor
  · intro h
    simp only [requesting, Bool.or_eq_true] at h
    rcases h with ((h | h) | h) | h <;> exact ⟨_, h⟩
  · rintro ⟨c, h⟩
    fin_cases c <;> simp_all [requesting]

/-- Where no line requests, the default scheduler picks none. -/
theorem pickLine_none (h : requesting s = false) : pickLine s = none := by simp [pickLine, h]

/-- Where some line requests, the default scheduler picks a requesting one. -/
theorem pickLine_some (h : requesting s = true) : ∃ c, pickLine s = some c ∧ req s c = true := by
  obtain ⟨d, hd⟩ := (requesting_iff s).1 h
  rcases hp : pickLine s with _ | c
  · rw [pickLine, if_pos h, List.find?_eq_none] at hp
    exact absurd hd (hp d (by fin_cases d <;> simp))
  · rw [pickLine, if_pos h] at hp
    exact ⟨c, rfl, List.find?_some (p := req s) hp⟩

end Sys2Proof.Machine
end

