-- ==== Sys2Proof/Laws/PerInstr.lean ====
section
/-! SUPPORT. Per instruction: its encoding has its format, and a host command's first byte is its opcode. -/

namespace Sys2Proof.Laws.Format

/-- The encoding of `i` is of the format 30_encoding gives `i` (R100, R103, R104), and a host command begins with its
opcode byte. -/
def Statement (i : Instr) : Prop :=
  match encode i with
  | .hc bytes => i.format = .hc ∧ bytes.head? = some i.opcode
  | .irq _ => i.format = .irq
  | .lb _ => i.format = .lb

theorem kpdInit : Statement .kpdInit := ⟨rfl, rfl⟩
theorem kpdClear : Statement .kpdClear := ⟨rfl, rfl⟩
theorem kpdGet : Statement .kpdGet := ⟨rfl, rfl⟩
theorem kpdWait : Statement .kpdWait := ⟨rfl, rfl⟩
theorem kpdGetWait : Statement .kpdGetWait := ⟨rfl, rfl⟩
theorem kpdGetChar : Statement .kpdGetChar := ⟨rfl, rfl⟩
theorem kpdGetCharWait : Statement .kpdGetCharWait := ⟨rfl, rfl⟩
theorem kpdToChar (key : Word) : Statement (.kpdToChar key) := ⟨rfl, rfl⟩
theorem kpdSetCharLut (table : Vector Byte 17) : Statement (.kpdSetCharLut table) := ⟨rfl, rfl⟩
theorem lcdInit : Statement .lcdInit := ⟨rfl, rfl⟩
theorem lcdClear : Statement .lcdClear := ⟨rfl, rfl⟩
theorem lcdHome : Statement .lcdHome := ⟨rfl, rfl⟩
theorem lcdCursorSet (x y : Byte) : Statement (.lcdCursorSet x y) := ⟨rfl, rfl⟩
theorem lcdCursorShow : Statement .lcdCursorShow := ⟨rfl, rfl⟩
theorem lcdCursorHide : Statement .lcdCursorHide := ⟨rfl, rfl⟩
theorem lcdPrint (s : List Byte) : Statement (.lcdPrint s) := ⟨rfl, rfl⟩
theorem lcdWriteInstr (v : Word) : Statement (.lcdWriteInstr v) := ⟨rfl, rfl⟩
theorem lcdWriteData (v : Word) : Statement (.lcdWriteData v) := ⟨rfl, rfl⟩
theorem hcReservedLow (op : Byte) : Statement (.hcReservedLow op) := ⟨rfl, rfl⟩
theorem hcReservedHigh (op : Byte) : Statement (.hcReservedHigh op) := ⟨rfl, rfl⟩
theorem kpdIsrCol0 : Statement .kpdIsrCol0 := rfl
theorem kpdIsrCol1 : Statement .kpdIsrCol1 := rfl
theorem kpdIsrCol2 : Statement .kpdIsrCol2 := rfl
theorem kpdIsrCol3 : Statement .kpdIsrCol3 := rfl
theorem clearDisplay : Statement .clearDisplay := rfl
theorem returnHome (x : Bool) : Statement (.returnHome x) := rfl
theorem entryModeSet (id sh : Bool) : Statement (.entryModeSet id sh) := rfl
theorem displayControl (d c b : Bool) : Statement (.displayControl d c b) := rfl
theorem cursorDisplayShift (sc rl : Bool) (x : BitVec 2) : Statement (.cursorDisplayShift sc rl x) := rfl
theorem functionSet (dl n f : Bool) (x : BitVec 2) : Statement (.functionSet dl n f x) := rfl
theorem setCgramAddr (a : BitVec 6) : Statement (.setCgramAddr a) := rfl
theorem setDdramAddr (a : BitVec 7) : Statement (.setDdramAddr a) := rfl
theorem writeData (b : Byte) : Statement (.writeData b) := rfl
theorem readBfAc (x : Byte) : Statement (.readBfAc x) := rfl
theorem readData (x : Byte) : Statement (.readData x) := rfl

end Sys2Proof.Laws.Format
end

