-- ==== Sys2Proof/Laws/Run.lean ====
section
/-! SUPPORT. Once for each shared operation that runs micro-steps: what it can do. A property kept by every micro-step,
by the re-evaluation and by the moves of the control position is kept by an instruction, a turn and a step. -/

namespace Sys2Proof.Machine

/-- `P` is kept by the moves of the control position and by the re-evaluation. -/
structure KeptByControl (P : State → Prop) : Prop where
  fgpos : ∀ s p, P s → P { s with fgpos := p }
  isrpos : ∀ s p, P s → P { s with isrpos := p }
  turnOver : ∀ s, P s → P s.turnOver
  accept : ∀ s, P s → P { s.turnOver with result := none }
  settle : ∀ s, P s → P s.settle

/-- `P` is kept by the micro-steps of a program in a context. -/
abbrev KeptByMicros (P : State → Prop) (x : Ctx) (ms : List Micro) : Prop :=
  ∀ m ∈ ms, ∀ s t, P s → micro x m s = .next t → P t

/-- `P` is kept by whatever an instruction is made of. -/
structure Kept (P : State → Prop) : Prop extends KeptByControl P where
  micro : ∀ x m s t, P s → micro x m s = .next t → P t
  device : ∀ i s t, P s → deviceExec i s = .next t → P t

variable {P : State → Prop} {s t : State}

/-- A run of foreground micro-steps keeps what its parts keep. -/
theorem runFg_keeps (h : KeptByControl P) {i : Instr} {k : Nat} {ms : List Micro} {q : Option Nat}
    (hm : KeptByMicros P .fg ms) (hs : P s) (hr : runFg i k ms q s = .next t) : P t := by
  induction ms generalizing k q s with
  | nil => simp only [runFg, Host.Outcome.next.injEq] at hr; exact hr ▸ h.fgpos _ _ hs
  | cons m rest ih =>
    simp only [runFg] at hr
    split at hr
    · split at hr
      · rename_i u hu'
        have hu : P u.settle := h.settle _ (hm m (by simp) _ _ (h.fgpos _ _ hs) hu')
        split at hr
        · cases hr; exact hu
        · exact ih (fun m' hm' => hm m' (by simp [hm'])) hu hr
      · cases hr
      · cases hr
    · cases hr; exact h.fgpos _ _ hs

/-- A run of a handler's micro-steps keeps what its parts keep. -/
theorem runIsr_keeps (h : KeptByControl P) {c : Col} {k : Nat} {ms : List Micro} {q : Option Nat}
    (hm : KeptByMicros P .isr ms) (hs : P s) (hr : runIsr c k ms q s = .next t) : P t := by
  induction ms generalizing k q s with
  | nil =>
    simp only [runIsr] at hr
    split at hr <;> cases hr <;> exact h.isrpos _ _ hs
  | cons m rest ih =>
    have hrest : KeptByMicros P .isr rest := fun m' hm' => hm m' (by simp [hm'])
    simp only [runIsr] at hr
    split at hr
    · exact ih hrest hs hr
    · split at hr
      · cases hr; exact h.isrpos _ _ hs
      · split at hr
        · rename_i u hu
          exact ih hrest (h.settle _ (hm m (by simp) _ _ (h.isrpos _ _ hs) hu)) hr
        · cases hr
        · cases hr

/-- A host command keeps what its parts keep. -/
theorem hostCommand_keeps (h : KeptByControl P) {i : Instr} {ch : State → Option Refusal} {prog : List Micro}
    (hm : KeptByMicros P .fg prog) (hs : P s) (hr : hostCommand i ch prog s = .next t) : P t := by
  unfold hostCommand at hr
  split at hr
  · split at hr
    · cases hr
    · cases hr; exact h.turnOver _ hs
  · split at hr
    · split at hr
      · cases hr
      · exact runFg_keeps h hm (h.accept _ hs) hr
    · split at hr
      · exact runFg_keeps h (fun m hm' => hm m (List.mem_of_mem_drop hm')) (h.turnOver _ hs) hr
      · cases hr; exact h.turnOver _ hs

/-- An interrupt event keeps what its parts keep. -/
theorem columnHandler_keeps (h : KeptByControl P) {c : Col} {prog : List Micro} (hm : KeptByMicros P .isr prog)
    (hs : P s) (hr : columnHandler c prog s = .next t) : P t := by
  unfold columnHandler at hr
  split at hr
  · split at hr
    · exact runIsr_keeps h hm (h.isrpos _ _ (h.turnOver _ hs)) hr
    · cases hr; exact h.turnOver _ hs
  · split at hr
    · exact runIsr_keeps h (fun m hm' => hm m (List.mem_of_mem_drop hm')) (h.turnOver _ hs) hr
    · cases hr; exact h.turnOver _ hs

/-- Every instruction keeps what its parts keep. -/
theorem exec_keeps (h : Kept P) {i : Instr} (hs : P s) (hr : exec i s = .next t) : P t := by
  cases i with
  | kpdInit => unfold exec execKpdInit at hr; exact hostCommand_keeps h.toKeptByControl (fun m _ => h.micro .fg m) hs hr
  | lcdInit => unfold exec execLcdInit at hr; exact hostCommand_keeps h.toKeptByControl (fun m _ => h.micro .fg m) hs hr
  | kpdClear | kpdGet | kpdWait | kpdGetWait | kpdGetChar | kpdGetCharWait
  | kpdToChar _ | kpdSetCharLut _ | lcdClear | lcdHome | lcdCursorSet _ _
  | lcdCursorShow | lcdCursorHide | lcdPrint _ | lcdWriteInstr _ | lcdWriteData _ =>
    exact hostCommand_keeps h.toKeptByControl (fun m _ => h.micro .fg m) hs hr
  | hcReservedLow _ | hcReservedHigh _ => cases hr
  | kpdIsrCol0 | kpdIsrCol1 | kpdIsrCol2 | kpdIsrCol3 => exact columnHandler_keeps h.toKeptByControl (fun m _ => h.micro .isr m) hs hr
  | clearDisplay => exact h.device .clearDisplay _ _ hs hr
  | returnHome x => exact h.device (.returnHome x) _ _ hs hr
  | entryModeSet a b => exact h.device (.entryModeSet a b) _ _ hs hr
  | displayControl a b c => exact h.device (.displayControl a b c) _ _ hs hr
  | cursorDisplayShift a b x => exact h.device (.cursorDisplayShift a b x) _ _ hs hr
  | functionSet a b c x => exact h.device (.functionSet a b c x) _ _ hs hr
  | setCgramAddr a => exact h.device (.setCgramAddr a) _ _ hs hr
  | setDdramAddr a => exact h.device (.setDdramAddr a) _ _ hs hr
  | writeData b => exact h.device (.writeData b) _ _ hs hr
  | readBfAc x => exact h.device (.readBfAc x) _ _ hs hr
  | readData x => exact h.device (.readData x) _ _ hs hr

/-- `P` is also kept by the outside world's moves. -/
structure KeptByStep (P : State → Prop) : Prop extends Kept P where
  quantum : ∀ s q, P s → P { s with quantum := q }
  port : ∀ s p, P s → P { s with port := p }
  sched : ∀ s l, P s → P { s with sched := l }
  env : ∀ e s t, P s → envStep e s = .next t → P t

theorem foreground_keeps (h : KeptByStep P) (hs : P s) (hr : foreground s = .next t) : P t := by
  unfold foreground at hr
  split at hr
  · exact exec_keeps h.toKept hs hr
  · split at hr
    · exact exec_keeps h.toKept (h.port _ _ hs) hr
    · cases hr; exact h.turnOver _ hs

theorem defaultTurn_keeps (h : KeptByStep P) (hs : P s) (hr : defaultTurn s = .next t) : P t := by
  unfold defaultTurn at hr
  split at hr
  · exact exec_keeps h.toKept hs hr
  · split at hr
    · exact exec_keeps h.toKept hs hr
    · exact foreground_keeps h hs hr

theorem takeTurn_keeps (h : KeptByStep P) {u : Turn} (hs : P s) (hr : takeTurn u s = .next t) : P t := by
  cases u with
  | go => exact defaultTurn_keeps h hs hr
  | run n =>
    simp only [takeTurn, context] at hr
    split at hr
    · exact exec_keeps h.toKept (h.quantum _ _ hs) hr
    · exact foreground_keeps h (h.quantum _ _ hs) hr
  | enter c n => exact exec_keeps h.toKept (h.quantum _ _ hs) hr
  | env e => exact h.env e _ _ hs hr
  | command bytes => cases hr; exact h.port _ _ hs
  | busWord w =>
    simp only [takeTurn, busRequest] at hr
    split at hr
    · exact exec_keeps h.toKept hs hr
    · cases hr

/-- Every step keeps what its parts keep. -/
theorem step_keeps (h : KeptByStep P) (hs : P s) (hr : step s = .next t) : P t := by
  unfold step schedule at hr
  split at hr
  · rename_i o ho
    unfold alreadyStopped at ho
    subst hr
    split at ho
    · simp at ho
    · split at ho <;> simp at ho
  · split at hr
    · cases hr
    · split at hr
      · exact defaultTurn_keeps h hs hr
      · exact takeTurn_keeps h (h.sched _ _ hs) hr

end Sys2Proof.Machine
end

