-- ==== Sys2Proof/Laws/Turn.lean ====
section
/-! SUPPORT. Running an operation's micro-steps, one lemma for each way a turn can go on, and whose turn it is. -/

namespace Sys2Proof.Machine

variable {s t : State}

/-! ### The foreground (R49, R275) -/

/-- After its last micro-step an operation returns `fgpos` to `Idle`. -/
theorem runFg_done (i : Instr) (k : Nat) (q : Option Nat) (s : State) :
    runFg i k [] q s = .next { s with fgpos := .idle } := rfl

/-- One micro-step of the foreground, where it may run, answers a next state and is no poll to be repeated. -/
theorem runFg_cons {i : Instr} {k : Nat} {m : Micro} {ms : List Micro} {q : Option Nat}
    (hq : mayRun q s = true) (hm : micro .fg m { s with fgpos := .inOp i k } = .next t) (hp : pollAgain m t = false) :
    runFg i k (m :: ms) q s = runFg i (k + 1) ms (spend q) t.settle := by
  simp [runFg, hq, hm, hp]

/-- A poll that reads 0 ends the turn where it stands. -/
theorem runFg_poll {i : Instr} {k : Nat} {ms : List Micro} {q : Option Nat} (hq : mayRun q s = true)
    (h0 : s.slot = 0) :
    runFg i k (.pollSlot :: ms) q s = .next { s with fgpos := .inOp i k, fgV := 0 }.settle := by
  simp [runFg, hq, micro, pollAgain, h0]

/-- A foreground that may not run stands where it is. -/
theorem runFg_wait {i : Instr} {k : Nat} {m : Micro} {ms : List Micro} {q : Option Nat} (hq : mayRun q s = false) :
    runFg i k (m :: ms) q s = .next { s with fgpos := .inOp i k } := by
  simp [runFg, hq]

/-- A bounded turn that is not used up runs. -/
theorem mayRun_bounded (n : Nat) (s : State) : mayRun (some (n + 1)) s = true := by
  simp [mayRun]

/-- With no line both unmasked and delivered, none requests. -/
theorem requesting_undelivered (h : Undelivered s) : requesting s = false := by
  have hr : ∀ c, req s c = false := by
    intro c
    have := h c
    simp only [req, Bool.and_assoc, this, Bool.and_false]
  simp [requesting, hr]

/-- A turn long enough for `n + 1` micro-steps runs the first, -/
theorem RunsFor.mayRun {n : Nat} (h : RunsFor (n + 1) s) : mayRun s.quantum s = true := by
  rcases h with ⟨m, hm, hn⟩ | ⟨hq, hu⟩
  · rw [hm, show m = (m - 1) + 1 by omega]
    exact mayRun_bounded _ _
  · rw [hq]
    rcases hu with hu | hu
    · simp [Machine.mayRun, requesting_undelivered hu]
    · simp [Machine.mayRun, hu.idle]

/-! ### A handler (R272, R274, R277) -/

/-- After its last micro-step the scan returns. -/
theorem runIsr_done {c : Col} {k : Nat} {q : Option Nat} (hq : q ≠ some 0) :
    runIsr c k [] q s = .next (returnFromHandler s) := by
  simp [runIsr, hq]

/-- One micro-step of a handler whose turn is not used up. -/
theorem runIsr_cons {c : Col} {k : Nat} {m : Micro} {ms : List Micro} {q : Option Nat} (hs : skipsRecord m s = false)
    (hq : q ≠ some 0) (hm : micro .isr m { s with isrpos := some { col := c, k := k } } = .next t) :
    runIsr c k (m :: ms) q s = runIsr c (k + 1) ms (spend q) t.settle := by
  simp [runIsr, hs, hq, hm]

/-- A record that has no row is no micro-step (R151). -/
theorem runIsr_skip {c d : Col} {k : Nat} {ms : List Micro} {q : Option Nat} (h : s.isrR = .noMatch) :
    runIsr c k (.record d :: ms) q s = runIsr c (k + 1) ms q s := by
  simp [runIsr, skipsRecord, h]

/-! ### Commands and events -/

/-- An idle foreground accepts a command whose checks pass, from its first micro-step. -/
theorem hostCommand_accepted {i : Instr} {checks : State → Option Refusal} {prog : List Micro} (h : FgIdle s)
    (hc : checks s = none) :
    hostCommand i checks prog s = runFg i 1 prog s.quantum { s.turnOver with result := none } := by
  simp [hostCommand, h.1, h.2, hc]

/-- A check that fails refuses the command before any micro-step. -/
theorem hostCommand_refused {i : Instr} {checks : State → Option Refusal} {prog : List Micro} {r : Refusal}
    (h : FgIdle s) (hc : checks s = some r) : hostCommand i checks prog s = .refused r := by
  simp [hostCommand, h.1, h.2, hc]

/-- An operation in progress goes on from its position. -/
theorem hostCommand_resumed {i : Instr} {k : Nat} {checks : State → Option Refusal} {prog : List Micro}
    (h : FgAt i k s) : hostCommand i checks prog s = runFg i k (prog.drop (k - 1)) s.quantum s.turnOver := by
  simp [hostCommand, h.1, h.2]

/-- A requesting line's event enters its handler (R272). -/
theorem columnHandler_entered {c : Col} {prog : List Micro} (h : s.isrpos = none) (hr : req s c = true) :
    columnHandler c prog s = runIsr c 1 prog s.quantum (enterHandler c s.turnOver) := by
  simp [columnHandler, h, hr]

/-- A running handler goes on from its position. -/
theorem columnHandler_resumed {c : Col} {k : Nat} {prog : List Micro} (h : s.isrpos = some { col := c, k := k }) :
    columnHandler c prog s = runIsr c k (prog.drop (k - 1)) s.quantum s.turnOver := by
  simp [columnHandler, h]

/-- The event of line `c` is the handler of line `c` with its own scan. -/
theorem exec_isrInstr (c : Col) (s : State) : exec (isrInstr c) s = columnHandler c (scanProgram c) s := by
  fin_cases c <;> rfl

/-! ### Bus words -/

/-- A bus word's instruction is executed by the device. -/
theorem exec_bus {i : Instr} (h : i.format = .lb) (s : State) : exec i s = deviceExec i s := by
  cases i <;> first | rfl | cases h

/-- A command of an idle foreground that may run is decoded from the port. -/
theorem foreground_accepts {i : Instr} {rest : List Byte} (h : s.fgpos = .idle)
    (hd : decodeHc s.port = .ok (i, rest)) : foreground s = exec i { s with port := rest } := by
  simp [foreground, h, hd]

/-- An operation in progress is the foreground's turn. -/
theorem foreground_goes_on {i : Instr} {k : Nat} (h : s.fgpos = .inOp i k) : foreground s = exec i s := by
  simp [foreground, h]

/-- With nothing laid down, no stop and a sound configuration, a step is the default scheduler's turn. -/
theorem step_default (h1 : alreadyStopped s = none) (h2 : s.cfg.broken = none) (h3 : s.sched = []) :
    step s = defaultTurn s := by
  simp [step, schedule, h1, h2, h3]

/-- A turn that is laid down is taken. -/
theorem step_turn {u : Turn} {rest : List Turn} (h1 : alreadyStopped s = none) (h2 : s.cfg.broken = none)
    (h3 : s.sched = u :: rest) : step s = takeTurn u { s with sched := rest } := by
  simp [step, schedule, h1, h2, h3]

end Sys2Proof.Machine
end

