-- ==== Sys2Proof/Tests/Slice0.lean ====
section
/-! SUPPORT. Tests against spec/95_test_vectors (the vector's name stands before each test), words written out from
spec/30_encoding, terms that WellFormed refuses, and for each obligation with hypotheses a witness that meets them. -/

namespace Sys2Proof.Machine

/-! ### WellFormed refuses: one ill-formed term for each check -/

/-- R108: a printed string ends at its first `0x00`. -/
theorem test_wf_print : (Instr.lcdPrint [0x31, 0x00]).wellFormed = false ∧ (Instr.lcdPrint [0x31]).wellFormed = true := by
  decide

/-- R109: `0x09`–`0x7F` only. -/
theorem test_wf_reserved_low : (Instr.hcReservedLow 0x08).wellFormed = false ∧
    (Instr.hcReservedLow 0x80).wellFormed = false ∧ (Instr.hcReservedLow 0x09).wellFormed = true ∧
    (Instr.hcReservedLow 0x7F).wellFormed = true := by decide

/-- R109: `0x89`–`0xFF` only. -/
theorem test_wf_reserved_high : (Instr.hcReservedHigh 0x88).wellFormed = false ∧
    (Instr.hcReservedHigh 0x89).wellFormed = true ∧ (Instr.hcReservedHigh 0xFF).wellFormed = true := by decide

/-! ### Words written out from 30_encoding, one for each constructor -/

/-- R101: the opcode bytes of the keypad sub-block, operands as R108 and R112 lay them out. -/
theorem test_decode_keypad :
    decode (.hc [0x00]) = .ok (.kpdInit, []) ∧ decode (.hc [0x01]) = .ok (.kpdClear, []) ∧
    decode (.hc [0x02]) = .ok (.kpdGet, []) ∧ decode (.hc [0x03]) = .ok (.kpdWait, []) ∧
    decode (.hc [0x04]) = .ok (.kpdGetWait, []) ∧ decode (.hc [0x05]) = .ok (.kpdGetChar, []) ∧
    decode (.hc [0x06]) = .ok (.kpdGetCharWait, []) ∧
    decode (.hc [0x07, 0x00, 0x00, 0x00, 0x80]) = .ok (.kpdToChar 0x80000000, []) ∧
    decode (.hc [0x08, 0x00, 0x31, 0x32, 0x33, 0x41, 0x34, 0x35, 0x36, 0x42, 0x37, 0x38, 0x39, 0x43, 0x2A, 0x30, 0x23,
        0x44, 0x02])
      = .ok (.kpdSetCharLut #v[0x00, 0x31, 0x32, 0x33, 0x41, 0x34, 0x35, 0x36, 0x42, 0x37, 0x38, 0x39, 0x43, 0x2A,
        0x30, 0x23, 0x44], [0x02]) :=
  ⟨rfl, rfl, rfl, rfl, rfl, rfl, rfl, rfl, rfl⟩

/-- R101: the opcode bytes of the LCD sub-block, and R109's reserved ones. -/
theorem test_decode_lcd :
    decode (.hc [0x80]) = .ok (.lcdInit, []) ∧ decode (.hc [0x81]) = .ok (.lcdClear, []) ∧
    decode (.hc [0x82]) = .ok (.lcdHome, []) ∧ decode (.hc [0x83, 0x27, 0x01]) = .ok (.lcdCursorSet 39 1, []) ∧
    decode (.hc [0x84]) = .ok (.lcdCursorShow, []) ∧ decode (.hc [0x85]) = .ok (.lcdCursorHide, []) ∧
    decode (.hc [0x86, 0x31, 0x32, 0x00, 0x85]) = .ok (.lcdPrint [0x31, 0x32], [0x85]) ∧
    decode (.hc [0x87, 0x01, 0x00, 0x00, 0x00]) = .ok (.lcdWriteInstr 1, []) ∧
    decode (.hc [0x88, 0x00, 0x01, 0x00, 0x00]) = .ok (.lcdWriteData 0x100, []) ∧
    decode (.hc [0x09]) = .ok (.hcReservedLow 0x09, []) ∧ decode (.hc [0x7F]) = .ok (.hcReservedLow 0x7F, []) ∧
    decode (.hc [0x89]) = .ok (.hcReservedHigh 0x89, []) ∧ decode (.hc [0xFF]) = .ok (.hcReservedHigh 0xFF, []) ∧
    decode (.hc [0x87, 0x01, 0x00]) = .error .truncated ∧ decode (.hc []) = .error .truncated :=
  ⟨rfl, rfl, rfl, rfl, rfl, rfl, rfl, rfl, rfl, rfl, rfl, rfl, rfl, rfl, rfl⟩

/-- R103: the line numbers. -/
theorem test_decode_irq : decode (.irq 0b00) = .ok (.kpdIsrCol0, []) ∧ decode (.irq 0b01) = .ok (.kpdIsrCol1, []) ∧
    decode (.irq 0b10) = .ok (.kpdIsrCol2, []) ∧ decode (.irq 0b11) = .ok (.kpdIsrCol3, []) := ⟨rfl, rfl, rfl, rfl⟩

/-- R104, R105: the bus words, bit by bit `RS RW D7 … D0`. -/
theorem test_decode_bus :
    decode (.lb 0b0000000001) = .ok (.clearDisplay, []) ∧ decode (.lb 0b0000000011) = .ok (.returnHome true, []) ∧
    decode (.lb 0b0000000110) = .ok (.entryModeSet true false, []) ∧
    decode (.lb 0b0000001101) = .ok (.displayControl true false true, []) ∧
    decode (.lb 0b0000010100) = .ok (.cursorDisplayShift false true 0, []) ∧
    decode (.lb 0b0000111001) = .ok (.functionSet true true false 1, []) ∧
    decode (.lb 0b0001000010) = .ok (.setCgramAddr 2, []) ∧ decode (.lb 0b0011000101) = .ok (.setDdramAddr 0x45, []) ∧
    decode (.lb 0b1001000001) = .ok (.writeData 0x41, []) ∧ decode (.lb 0b0110000000) = .ok (.readBfAc 0x80, []) ∧
    decode (.lb 0b1100000001) = .ok (.readData 0x01, []) ∧ decode (.lb 0b0000000000) = .error .noBusClass :=
  ⟨rfl, rfl, rfl, rfl, rfl, rfl, rfl, rfl, rfl, rfl, rfl, rfl⟩

/-- The table's words: a bus word in whole bytes, a command's byte, a line number. -/
theorem test_table_words : decodeTableWord 16 0x038 = some (.functionSet true true false 0) ∧
    decodeTableWord 8 0x04 = some .kpdGetWait ∧ decodeTableWord 8 0x83 = some (.lcdCursorSet 0 0) ∧
    decodeTableWord 2 3 = some .kpdIsrCol3 ∧ decodeTableWord 16 0 = none := by decide

/-! ### States to test on -/

/-- Positions to test on, none of them a default: clock bits 2, 14 and 4, 4-bit select fields, enables at 6 to 9. -/
def testLayout : Layout where
  clkKpdPort := 2
  clkMux := 14
  clkLcdPort := 4
  muxWidth := 4
  muxPos := #v[0, 4, 8, 12]
  kpdPortCode := 2
  irqenBit := #v[6, 7, 8, 9]
  lcdRs := 0
  lcdRw := 1
  lcdE := 2
  lcdD := #v[3, 4, 5, 6, 7, 8, 9, 10]

/-- 95 §0's configuration. -/
def testConfig : Config where
  tDebounce := 20000
  tShort := .within 30
  tLong := .within 999
  tPowerOn := 40000
  devTShort := 37
  devTLong := 1520
  ePulseMin := 1
  keypadPins := #v[0, 1, 2, 3, 4, 5, 6, 7]
  rowlutIndex0 := .noMatch
  prLatchWhileMasked := false
  irqOrder := [0, 1, 2, 3]
  defaultChars := Vector.replicate 16 0x3F
  regAddr := #v[⟨0, 0⟩, ⟨1, 0⟩, ⟨2, 0⟩, ⟨3, 0⟩, ⟨4, 0⟩, ⟨5, 0⟩, ⟨6, 0⟩, ⟨7, 0⟩, ⟨8, 0⟩, ⟨9, 0⟩, ⟨10, 0⟩, ⟨11, 0⟩]
  lcdShares := false
  layout := testLayout

/-- The same with the LCD in the keypad's port (P23), on pins 8 to 18. -/
def sharedConfig : Config :=
  { testConfig with
    lcdShares := true
    layout := { testLayout with lcdRs := 8, lcdRw := 9, lcdE := 10, lcdD := #v[11, 12, 13, 14, 15, 16, 17, 18] } }

/-- 95 §0's table `T`. -/
def tableT : Vector Byte 17 :=
  #v[0x00, 0x31, 0x32, 0x33, 0x41, 0x34, 0x35, 0x36, 0x42, 0x37, 0x38, 0x39, 0x43, 0x2A, 0x30, 0x23, 0x44]

/-- The registers of an armed keypad port and a driven LCD bus, with some bits set that the block does not own. -/
def testRegs : Regs where
  clken := 0x80004014
  mode := 0xABCD5500
  pull := 0x1234AAAA
  odr := 0x777777FF
  mux := 0x00032222
  imr := 0x5000000F
  rtsr := 0x6000000F
  pr := 0
  irqen := 0x000003C1
  lmode := 0x00155555
  lodr := 0

/-- Both sub-blocks initialized, no key closed, the device free with `LCD_INIT`'s settings, and a turn of `q`. -/
def readyFor (q : Nat) : State :=
  { State.resetWith testConfig with
    lut := tableT, slot := 9, kpdInit := true, lcdInit := true, lcdPowered := true, anyLatch := true
    devBusy := .free, regs := testRegs, quantum := some q
    dev := { Dev.reset with id := true, dl := true, n := true, d := true, c := true, b := true } }

/-- A turn long enough for any test. -/
abbrev ready : State := readyFor 100

/-- Key (r, c) held, seen by the edge detector, and its line pending. -/
def heldAt (r : Row) (c : Col) : State :=
  let keys := setKey 0 r c true
  { ready with
    keys := keys
    lvl := { c0 := columnHeld keys 0, c1 := columnHeld keys 1, c2 := columnHeld keys 2, c3 := columnHeld keys 3 }
    regs := { testRegs with pr := maskBit 32 true c.val } }

/-- Right before step S5 of handler c, with a row sample taken in the scan's port directions. -/
def sampledAt (c : Col) (smp : BitVec 4) : State :=
  { ready with
    isrpos := some { col := c, k := 7 }, isrS := smp
    regs := { testRegs with mode := 0xABCD0055, imr := 0x50000000, pr := maskBit 32 true c.val } }

/-- The answer is a next state with `p`. -/
def nextWith (o : Host.Outcome State Fault Refusal) (p : State → Bool) : Bool :=
  match o with
  | .next t => p t
  | .fault _ => false
  | .refused _ => false

/-- The answer is the refusal `r`. -/
def refusedAs (o : Host.Outcome State Fault Refusal) (r : Refusal) : Bool :=
  match o with
  | .next _ => false
  | .fault _ => false
  | .refused x => x = r

/-- The answer is a fault with the record `f`, leaving a state with `p`. -/
def faultedWith (o : Host.Outcome State Fault Refusal) (f : FaultRecord) (p : State → Bool) : Bool :=
  match o with
  | .next _ => false
  | .fault x => x.record = f && p x.left
  | .refused _ => false

/-- The answer is a fault with the record `f`. -/
def faultedAs (o : Host.Outcome State Fault Refusal) (f : FaultRecord) : Bool := faultedWith o f (fun _ => true)

/-! ### Keypad commands -/

/-- P1 step 1. -/
theorem test_kpd_init : nextWith (exec .kpdInit { State.resetWith testConfig with quantum := some 18 }) (fun t =>
    t.regs.mode.extractLsb' 0 16 = 0x5500#16 ∧ t.regs.pull.extractLsb' 0 16 = 0xAAAA#16 ∧
    t.regs.odr.extractLsb' 0 8 = 0xFF#8 ∧ t.regs.irqen = 0x3C0 ∧ t.regs.mux = 0x2222 ∧ t.regs.clken = 0x4004 ∧ t.regs.pr = 0 ∧ t.kpdInit) = true := by
  decide

/-- HD5: the second `kpd.init` ends with an empty slot. -/
theorem test_kpd_init_twice : nextWith (exec .kpdInit ready) (fun t => t.slot = 0 ∧ t.fgpos = .idle) = true := by
  decide

/-- S1. -/
theorem test_kpd_clear : nextWith (exec .kpdClear ready) (fun t => t.slot = 0 ∧ t.result = none) = true := by
  decide

/-- P1 step 4's shape: the slot is the result and stays. -/
theorem test_kpd_get : nextWith (exec .kpdGet { ready with slot := 10 }) (fun t => t.result = some 10 ∧ t.slot = 10)
    = true := by decide

/-- P6: before `kpd.init`, refused with code 0x01. -/
theorem test_kpd_get_early : refusedAs (exec .kpdGet (State.resetWith testConfig))
    (.notInitialized 0x02 { fgpos := .idle, isrpos := none }) = true := by decide

/-- S4: `kpd.wait` erases an earlier key and polls. -/
theorem test_kpd_wait : nextWith (exec .kpdWait { ready with slot := 5 })
    (fun t => t.slot = 0 ∧ t.fgpos = .inOp .kpdWait 2) = true := by decide

/-- S3: with a key recorded, the poll returns and the key stays. -/
theorem test_kpd_wait_returns : nextWith (exec .kpdWait { ready with slot := 8, fgpos := .inOp .kpdWait 2 })
    (fun t => t.slot = 8 ∧ t.fgpos = .idle) = true := by decide

/-- P4 step 5. -/
theorem test_kpd_get_wait : nextWith (exec .kpdGetWait { ready with slot := 16, fgpos := .inOp .kpdGetWait 2 })
    (fun t => t.result = some 16 ∧ t.slot = 16 ∧ t.fgpos = .idle) = true := by decide

/-- P1 step 6: key 10 is `'8'`. -/
theorem test_kpd_get_char : nextWith (exec .kpdGetChar { ready with slot := 10 })
    (fun t => t.result = some 0x38) = true := by decide

/-- R136 on the same key. -/
theorem test_kpd_get_char_wait :
    nextWith (exec .kpdGetCharWait { ready with slot := 10, fgpos := .inOp .kpdGetCharWait 2 })
      (fun t => t.result = some 0x38 ∧ t.fgpos = .idle) = true := by decide

/-- X1, X2, X8. -/
theorem test_kpd_to_char : toChar tableT 1 = 0x31 ∧ toChar tableT 16 = 0x44 ∧ toChar tableT 10 = 0x38 := by decide

/-- X3 to X7, and X10: entry 0 is never returned. -/
theorem test_kpd_to_char_out : toChar tableT 0 = 0 ∧ toChar tableT 17 = 0 ∧ toChar tableT 0xFFFFFFFF = 0 ∧
    toChar tableT 0x80000000 = 0 ∧ toChar tableT 0x7FFFFFFF = 0 ∧ toChar (tableT.set 0 0x55) 0 = 0 := by decide

/-- X9. -/
theorem test_kpd_set_char_lut : nextWith (exec (.kpdSetCharLut (tableT.set 10 0x58)) ready)
    (fun t => toChar t.lut 10 = 0x58 ∧ t.slot = 9) = true := by decide

/-! ### Column handlers -/

/-- RV2: s = 0000 and 0100 in handler 1, slot 7 before. -/
theorem test_scan_records : nextWith (exec .kpdIsrCol1 { sampledAt 1 0b0100 with slot := 7 }) (fun t => t.slot = 10)
    = true ∧ nextWith (exec .kpdIsrCol1 { sampledAt 1 0b0000 with slot := 7 }) (fun t => t.slot = 7) = true := by
  decide

/-- RV3. -/
theorem test_scan_noise : nextWith (exec .kpdIsrCol3 { sampledAt 3 0b0110 with slot := 12 }) (fun t => t.slot = 12 ∧
    t.regs.mode.extractLsb' 0 16 = 0x5500#16 ∧ t.regs.pr.getLsbD 3 = false ∧ t.regs.imr.extractLsb' 0 4 = 0xF#4 ∧
    t.isrpos = none) = true := by decide

/-- P1 step 3, the whole scan: key (2, 1) is 10. -/
theorem test_scan_whole : nextWith (exec .kpdIsrCol1 (heldAt 2 1))
    (fun t => t.slot = 10 ∧ t.regs.pr = 0 ∧ t.isrpos = none ∧ t.regs.mode = 0xABCD5500) = true := by decide

/-- P17, D3: the same key with rows on pins 0..3 and columns on pins 4..7, another legal binding. -/
theorem test_scan_other_binding : nextWith (exec .kpdIsrCol1 { heldAt 2 1 with
    cfg := { testConfig with keypadPins := #v[4, 5, 6, 7, 0, 1, 2, 3] }
    regs := { testRegs with mode := 0xABCD0055, pr := 2 } })
    (fun t => t.slot = 10 ∧ t.regs.pr = 0 ∧ t.regs.mode = 0xABCD0055) = true := by decide

/-- R130 b, R150: `0x5500` and `0x0055` under P17's own binding. -/
theorem test_pin_directions : idleMode testConfig = 0x5500 ∧ scanMode testConfig = 0x0055 := by decide

/-- P4 step 4: key (3, 3) is 16; EX2: key (0, 0) is 1. -/
theorem test_scan_corners : nextWith (exec .kpdIsrCol3 (heldAt 3 3)) (fun t => t.slot = 16) = true ∧
    nextWith (exec .kpdIsrCol0 (heldAt 0 0)) (fun t => t.slot = 1) = true ∧
    nextWith (exec .kpdIsrCol2 (heldAt 0 2)) (fun t => t.slot = 3) = true := by decide

/-- Q9, R272: without a request the event is not taken. -/
theorem test_no_request : nextWith (exec .kpdIsrCol1 { heldAt 2 1 with
    regs := { testRegs with pr := 0b0010, irqen := 0x340 } })
    (fun t => t.isrpos = none ∧ t.slot = 9) = true := by decide

/-- Q10: the lower line goes first. -/
theorem test_lowest_first : pickLine { ready with regs := { testRegs with pr := 0b1010 } } = some 1 := by decide

/-! ### Registers and the edge detector -/

/-- Q1 to Q3. -/
theorem test_ack : nextWith (regWrite .pr 0b0010 { ready with regs := { testRegs with pr := 0b1010 } })
      (fun t => t.regs.pr = 0b1000) = true ∧
    nextWith (regWrite .pr 0 { ready with regs := { testRegs with pr := 0b1010 } })
      (fun t => t.regs.pr = 0b1010) = true ∧
    nextWith (regWrite .pr 0xF { ready with regs := { testRegs with pr := 0 } })
      (fun t => t.regs.pr = 0) = true := by decide

/-- Q4, Q5 and Q6: a key of column 2 closes. -/
theorem test_edges : nextWith (envStep (.key 1 2 true) ready) (fun t => t.regs.pr = 0b0100) = true ∧
    nextWith (envStep (.key 1 2 true) { ready with regs := { testRegs with imr := 0 } }) (fun t => t.regs.pr = 0) = true ∧
    nextWith (envStep (.key 1 2 true) { ready with
      regs := { testRegs with imr := 0 }, cfg := { testConfig with prLatchWhileMasked := true } })
      (fun t => t.regs.pr = 0b0100) = true := by decide

/-- Q7 and Q8: a falling edge, and a line that `RTSR` does not select. -/
theorem test_no_edges : nextWith (envStep (.key 1 2 false) { heldAt 1 2 with regs := testRegs })
      (fun t => t.regs.pr = 0 ∧ t.lvl.get 2 = false) = true ∧
    nextWith (envStep (.key 1 2 true) { ready with regs := { testRegs with rtsr := 0b1011 } })
      (fun t => t.regs.pr = 0 ∧ t.lvl.get 2 = true) = true := by decide

/-- R314: where the LCD shares the keypad's port, `LODR` is `ODR` and `LMODE` is `MODE`. -/
theorem test_shared_port :
    (let s := { ready with cfg := sharedConfig }
     regRead .lodr s = .ok 0x777777FF ∧ regRead .lmode s = .ok 0xABCD5500) ∧
    regRead .lodr ready = .ok 0 ∧ regRead .lmode ready = .ok 0x00155555 :=
  ⟨⟨rfl, rfl⟩, rfl, rfl⟩

/-- R314, R83: a handler that pre-empts `LCD_INIT`'s I2 between its read and its write loses it nothing. -/
theorem test_shared_port_hazard :
    let s := { heldAt 2 1 with cfg := sharedConfig, quantum := some 3 }
    nextWith (exec .lcdInit s) (fun t => t.fgpos = .inOp .lcdInit 4 ∧
      nextWith (exec .kpdIsrCol1 t) (fun u => u.slot = 10 ∧
        nextWith (exec .lcdInit { u with quantum := some 1 }) (fun v => v.regs.mode = 0x55555500 ∧
          v.highOut))) = true := by decide

/-- R48, R314: in a shared port `LCD_INIT` keeps the keypad's bits of `MODE` and `ODR` and the bits of neither, and a
scan keeps the LCD's fields. -/
theorem test_shared_port_disjoint :
    nextWith (exec .lcdInit { ready with cfg := sharedConfig, regs := { testRegs with odr := 0xFFF800FF } }) (fun t =>
      t.regs.mode = 0x55555500 ∧ t.regs.odr.extractLsb' 0 8 = 0xFF#8 ∧ t.regs.odr.extractLsb' 19 13 = 0x1FFF#13 ∧
      t.events.take 2 = [.latch 0x038, .delay 40]) = true ∧
    nextWith (exec .kpdIsrCol1 { heldAt 2 1 with cfg := sharedConfig }) (fun t =>
      t.slot = 10 ∧ t.regs.mode = 0xABCD5500 ∧ t.regs.odr = 0x777777FF) = true := by decide

/-- P5 step 3, R160: two keys of one column join both rows to it, and the driven column keeps its level. -/
theorem test_nets : (∀ p ∈ [2, 4, 5], p ∈ net 0x0044 2) ∧ (net 0x0044 2).length = 3 := by decide

/-- R37: `MODE` before the port's clock runs. -/
theorem test_clock_gated :
    faultedAs (exec .kpdInit { State.resetWith testConfig with quantum := some 1, fgpos := .inOp .kpdInit 3 })
      (.clockGated .mode { fgpos := .inOp .kpdInit 3, isrpos := none }) = true := by decide

/-! ### LCD commands -/

/-- BS1, P2 step 1. -/
theorem test_lcd_init : nextWith (exec .lcdInit { State.resetWith testConfig with quantum := some 35, devBusy := .free })
    (fun t => t.events = [.latch 0x038, .delay 40, .latch 0x038, .delay 40, .latch 0x00F, .delay 40, .latch 0x001,
      .delay 2000, .latch 0x006, .delay 40] ∧ t.lcdInit ∧ t.devBusy = .free ∧ t.fgpos = .idle) = true := by
  decide

/-- BS4, R220, R261: the micro-steps before the fault stand, and the word is on the trace. -/
theorem test_lcd_init_unpowered : faultedWith (exec .lcdInit { State.resetWith testConfig with quantum := some 35 })
    (.lcdBusy 0x038 { fgpos := .inOp .lcdInit 9, isrpos := none })
    (fun t => t.events = [.latch 0x038] ∧ t.fgpos = .inOp .lcdInit 9 ∧ t.regs.lmode = 0x00155555 ∧
      t.regs.clken = 0x10) = true := by decide

/-- BS2: the second word of `LCD_INIT` with `T_SHORT` below `DEV_T_SHORT`. -/
theorem test_lcd_init_hasty : faultedWith
    (exec .lcdInit { ready with cfg := { testConfig with tShort := .within 20 } })
    (.lcdBusy 0x038 { fgpos := .inOp .lcdInit 15, isrpos := none })
    (fun t => t.events = [.latch 0x038, .delay 30, .latch 0x038]) = true := by decide

/-- P2's `I_CLEAR`, R223. -/
theorem test_lcd_clear : nextWith (exec .lcdClear { ready with vram := [(0x41, 0x41), (0x105, 0x1F)] })
    (fun t => t.events = [.latch 0x001, .delay 2000] ∧ t.vram = [(0x105, 0x1F)] ∧
      t.dev.cursor = { col := 0, row := 0 }) = true := by decide

/-- W4, R192, R224. -/
theorem test_lcd_home : nextWith (exec .lcdHome { ready with vram := [(0x41, 0x41)] })
    (fun t => t.events = [.latch 0x002, .delay 2000] ∧ t.vram = [(0x41, 0x41)]) = true := by decide

/-- R193, and P3 step 3. -/
theorem test_lcd_cursor_show : nextWith (exec .lcdCursorShow ready)
    (fun t => t.events = [.latch 0x00F, .delay 40] ∧ t.dev.c = true) = true := by decide

theorem test_lcd_cursor_hide : nextWith (exec .lcdCursorHide ready)
    (fun t => t.events = [.latch 0x00D, .delay 40] ∧ t.dev.c = false ∧ t.dev.d ∧ t.dev.b) = true := by decide

/-- CP5: refused before any word. -/
theorem test_lcd_cursor_range : refusedAs (exec (.lcdCursorSet 40 0) ready)
    (.cursorRange 40 0 { fgpos := .idle, isrpos := none }) = true := by decide

/-- The shape of P3 step 1: home, then one shift for each column. -/
theorem test_lcd_cursor_set : nextWith (exec (.lcdCursorSet 3 0) ready) (fun t => t.events = [.latch 0x002, .delay 2000,
    .latch 0x014, .delay 40, .latch 0x014, .delay 40, .latch 0x014, .delay 40] ∧
    t.dev.cursor = { col := 3, row := 0 }) = true := by decide

/-- P2 step 2. -/
theorem test_lcd_print : nextWith (exec (.lcdPrint [0x31, 0x32]) ready) (fun t => t.events = [.latch 0x231, .delay 40,
    .latch 0x232, .delay 40] ∧ t.vram = [(0, 0x31), (1, 0x32)] ∧ t.dev.cursor = { col := 2, row := 0 }) = true := by
  decide

/-- R228, log 5: with `N = 0` the second character lands at the cursor drawn when the first is latched. -/
theorem test_lcd_print_one_line :
    let s := { ready with dev := { ready.dev with n := false } }
    ∃ t, exec (.lcdPrint [0x31, 0x32]) s = .next t ∧ t.dev.cursor = strayCell s 2 ∧
      t.vram = memWrite [(0, 0x31)] (cursorAddr (strayCell s 1)) 0x32 := ⟨_, rfl, rfl, rfl⟩

/-- CP9. -/
theorem test_lcd_print_long : refusedAs (exec (.lcdPrint (List.replicate 81 0x78)) ready)
    (.printTooLong 81 { fgpos := .idle, isrpos := none }) = true := by decide

/-- W12: DDRAM address 0x45 is (5, 1). -/
theorem test_lcd_write_instr : nextWith (exec (.lcdWriteInstr 0xC5) ready) (fun t => t.events = [.latch 0x0C5,
    .delay 40] ∧ t.dev.cursor = { col := 5, row := 1 }) = true := by decide

/-- W9 and W10. -/
theorem test_lcd_write_instr_edges : refusedAs (exec (.lcdWriteInstr 0) ready)
      (.lcdReserved 0 { fgpos := .idle, isrpos := none }) = true ∧
    nextWith (exec (.lcdWriteInstr 0x100) ready) (fun t => t.events = [] ∧ t.fgpos = .idle) = true := by decide

/-- W2. -/
theorem test_lcd_write_data : nextWith (exec (.lcdWriteData 0xFF) ready) (fun t => t.events = [.latch 0x2FF, .delay 40]
    ∧ t.vram = [(0, 0xFF)]) = true := by decide

/-- W1. -/
theorem test_lcd_write_data_wide : nextWith (exec (.lcdWriteData 0x100) ready) (fun t => t.events = [] ∧ t.vram = [])
    = true := by decide

/-! ### Bus words -/

/-- R223. -/
theorem test_clear_display : nextWith (exec .clearDisplay { ready with vram := [(3, 0x41), (0x13F, 1)] })
    (fun t => t.vram = [(0x13F, 1)] ∧ t.devBusy = .long) = true := by decide

/-- R224 on a shifted display. -/
theorem test_return_home : nextWith (exec (.returnHome true) { ready with dev := { ready.dev with shift := 7 } })
    (fun t => t.dev.shift = 0 ∧ t.devBusy = .long ∧ t.events = [.latch 0x003]) = true := by decide

/-- R225: `0x005` is left with shift. -/
theorem test_entry_mode_set : nextWith (exec (.entryModeSet false true) ready)
    (fun t => t.events = [.latch 0x005] ∧ t.dev.id = false ∧ t.dev.sh ∧ t.devBusy = .short) = true := by decide

/-- R226: `0x00A`. -/
theorem test_display_control : nextWith (exec (.displayControl false true false) ready)
    (fun t => t.events = [.latch 0x00A] ∧ t.dev.d = false ∧ t.dev.c ∧ t.dev.b = false) = true := by decide

/-- CP11: a left shift from (0, 0). -/
theorem test_cursor_shift : nextWith (exec (.cursorDisplayShift false false 0) ready)
    (fun t => t.events = [.latch 0x010] ∧ t.dev.cursor = { col := 39, row := 1 }) = true := by decide

/-- R227: a display shift to the left from 0 is 39. -/
theorem test_display_shift : nextWith (exec (.cursorDisplayShift true false 0) ready)
    (fun t => t.events = [.latch 0x018] ∧ t.dev.shift = 39 ∧ t.dev.cursor = { col := 0, row := 0 }) = true := by
  decide

/-- W11: the next latched word faults. -/
theorem test_function_set : nextWith (exec (.functionSet false false false 0) ready) (fun t => t.events = [.latch 0x020] ∧
    faultedAs (exec .clearDisplay { t with devBusy := .free }) (.lcdMode 0x001 t.pos)) = true := by decide

/-- R243: column `(p + shift) mod 40` of the row is seen at `p`. -/
theorem test_visible_char :
    visibleChar { ready with vram := [(0x41, 0x42)], dev := { ready.dev with shift := 1 } } 1 0 = 0x42 ∧
    visibleChar { ready with vram := [(0x01, 0x43)], dev := { ready.dev with shift := 39 } } 0 2 = 0x43 := by decide

/-- R229. -/
theorem test_set_cgram_addr : nextWith (exec (.setCgramAddr 0x3F) ready) (fun t => t.events = [.latch 0x07F] ∧
    t.dev.space = .cgram ∧ t.dev.cgaddr = 0x3F) = true := by decide

/-- W8 and the row border of R241. -/
theorem test_set_ddram_addr : nextWith (exec (.setDdramAddr 0x40) ready) (fun t => t.events = [.latch 0x0C0] ∧
    t.dev.cursor = { col := 0, row := 1 }) = true ∧
    nextWith (exec (.setDdramAddr 0x28) ready) (fun t => t.events = [.latch 0x0A8] ∧ t.dev.space = .ddram) = true := by
  decide

/-- CP10. -/
theorem test_write_data : nextWith (exec (.writeData 0x41) { ready with
    dev := { ready.dev with cursor := { col := 39, row := 1 } } }) (fun t => t.events = [.latch 0x241] ∧
    t.vram = [(0x67, 0x41)] ∧ t.dev.cursor = { col := 0, row := 0 }) = true := by decide

/-- R231 in CGRAM: the address 63 wraps; the five bits are any value (I24). -/
theorem test_write_data_cgram : nextWith (exec (.writeData 0xFF) { ready with
    dev := { ready.dev with space := .cgram, cgaddr := 0x3F } }) (fun t => t.dev.cgaddr = 0 ∧ t.dev.space = .cgram)
    = true := by decide

/-- R232 and R233. -/
theorem test_reads_refused : refusedAs (exec (.readBfAc 0) ready) (.lcdRead 0x100 ready.pos) = true ∧
    refusedAs (exec (.readData 0x80) ready) (.lcdRead 0x380 ready.pos) = true := by decide

/-- HD2. -/
theorem test_reserved_refused : refusedAs (exec (.hcReservedLow 0x7F) ready) (.reservedOpcode 0x7F ready.pos) = true ∧
    refusedAs (exec (.hcReservedHigh 0x89) ready) (.reservedOpcode 0x89 ready.pos) = true := by decide

/-! ### Steps -/

/-- The step that follows `withFetchWord` runs the placed instruction: a command, a bus word, and a reserved opcode. -/
theorem test_fetch_word : nextWith (step ((State.resetWith testConfig).withFetchWord 8 0x00)) (fun t => t.kpdInit ∧
      t.port = [] ∧ t.fgpos = .idle) = true ∧
    refusedAs (step ((State.resetWith testConfig).withFetchWord 8 0x09))
      (.reservedOpcode 0x09 { fgpos := .idle, isrpos := none }) = true ∧
    faultedAs (step ((State.resetWith testConfig).withFetchWord 16 0x001))
      (.lcdBusy 0x001 { fgpos := .idle, isrpos := none }) = true := by decide

/-! ### Witnesses: states and operands that meet each obligation's hypotheses -/

/-- What `nextWith` says. -/
theorem nextWith_some {o : Host.Outcome State Fault Refusal} {p : State → Bool} (h : nextWith o p = true) :
    ∃ t, o = .next t := by
  cases o with
  | next t => exact ⟨t, rfl⟩
  | fault _ => cases h
  | refused _ => cases h

/-- A turn of `q` covers `n` micro-steps. -/
theorem readyFor_runs {n q : Nat} (h : n ≤ q) : RunsFor n (readyFor q) := .inl ⟨q, rfl, h⟩

/-- `readyFor q` can drive the device. -/
theorem readyFor_lcd (q : Nat) : LcdCan (readyFor q) :=
  ⟨by show testRegs.clken.getLsbD 4 = true; decide, by show ∀ p ∈ testLayout.lcdPins, (if p.val < 16 then pinField testRegs.lmode p.val == modeOutput else false) = true; decide, rfl, rfl⟩

/-- The configurations' fields do not overlap. -/
theorem testConfig_wired : testConfig.Wired := by decide

theorem sharedConfig_wired : sharedConfig.Wired := by decide

/-- A configuration with line `E` on pin `p`. -/
def withE (c : Config) (p : PortPin) : Config := { c with layout := { c.layout with lcdE := p } }

/-- An LCD line of a shared port may stand on any pin from 8 to 31, of a port of its own on any from 0 to 15 (log 7). -/
theorem test_placed : (withE sharedConfig 31).Wired ∧ ¬ (withE sharedConfig 7).Wired ∧
    (withE testConfig 15).Wired ∧ ¬ (withE testConfig 16).Wired :=
  ⟨by decide, by decide, by decide, by decide⟩

/-- `heldAt r c` is an armed port. -/
theorem heldAt_armed (r : Row) (c : Col) : PortArmed (heldAt r c) :=
  ⟨by show testRegs.clken.getLsbD 2 = true; decide, by show testRegs.mode.extractLsb' 0 16 = idleMode testConfig; decide,
    by show testRegs.pull.extractLsb' 0 16 = _; decide, by show testRegs.odr.extractLsb' 0 8 = _; decide,
    by show ∀ d, routed testLayout testRegs.mux d = true; decide, by show testRegs.rtsr.extractLsb' 0 4 = _; decide,
    by show testRegs.imr.extractLsb' 0 4 = _; decide, by show ∀ d, irqOn testLayout testRegs.irqen d = true; decide⟩

/-- `heldAt r c` is a calm port. -/
theorem heldAt_calm (r : Row) (c : Col) : Calm (heldAt r c) :=
  ⟨rfl, rfl, by intro d; fin_cases d <;> rfl⟩

/-- The resting state of an initialized keypad in the default scheduler's turn. -/
abbrev resting : State := { ready with quantum := none }

/-- Lines are delivered in it and none requests. -/
theorem resting_quiet : Quiet resting where
  wired := testConfig_wired
  armed := { heldAt_armed 0 0 with }
  calm := ⟨rfl, rfl, by intro d; fin_cases d <;> rfl⟩
  idle := rfl

/-- An unbounded turn in it is not pre-empted. -/
theorem resting_runs (n : Nat) : RunsFor n resting := .inr ⟨rfl, .inr resting_quiet⟩

/-- An idle machine with commands in its port. -/
def portOf (bytes : List Byte) : State := { State.resetWith testConfig with port := bytes }

/-- `ready` with a turn laid down. -/
def turnOf (u : Turn) : State := { ready with quantum := none, sched := [u] }

theorem test_witness_EncodingRoundTrips : (Instr.lcdPrint [0x31]).wellFormed = true ∧
    (Instr.hcReservedLow 0x09).wellFormed = true ∧ (Instr.hcReservedHigh 0xFF).wellFormed = true := by decide

theorem test_witness_DecodingIsUnambiguous : decode (.hc [0x83, 0x03, 0x01]) = .ok (.lcdCursorSet 3 1, []) ∧
    decode (.irq 3) = .ok (.kpdIsrCol3, []) ∧ decode (.lb 0x001) = .ok (.clearDisplay, []) := ⟨rfl, rfl, rfl⟩

theorem test_witness_ReservedOpcodesAreRefused :
    (0x09 ≤ (0x09 : Byte).toNat ∧ (0x09 : Byte).toNat ≤ 0x7F) ∧ (0x09 ≤ (0x7F : Byte).toNat ∧ (0x7F : Byte).toNat ≤ 0x7F) ∧
    0x89 ≤ (0x89 : Byte).toNat ∧ 0x89 ≤ (0xFF : Byte).toNat := by decide

theorem test_witness_StepRunsTheDecodedCommand :
    (∀ bytes, alreadyStopped (portOf bytes) = none ∧ (portOf bytes).cfg.broken = none ∧ (portOf bytes).sched = [] ∧
      FgIdle (portOf bytes) ∧ requesting (portOf bytes) = false) ∧
    decodeHc (portOf [0x00, 0x02]).port = .ok (.kpdInit, [0x02]) ∧ decodeHc (portOf []).port = .error .truncated :=
  ⟨fun bytes => ⟨rfl, rfl, rfl, ⟨rfl, rfl⟩, by
    have h : requesting (portOf []) = false := by decide
    exact h⟩, rfl, rfl⟩

theorem test_witness_StepTakesTheTurn :
    (∀ u, alreadyStopped (turnOf u) = none ∧ (turnOf u).cfg.broken = none ∧ (turnOf u).sched = [u]) ∧
    (sampledAt 1 4).isrpos = some { col := 1, k := 7 } ∧ (sampledAt 1 4).sched = [] ∧
    alreadyStopped (sampledAt 1 4) = none ∧ (sampledAt 1 4).cfg.broken = none ∧
    (let s := { ready with quantum := none, fgpos := .inOp .kpdGetWait 2 }
     alreadyStopped s = none ∧ s.cfg.broken = none ∧ s.sched = [] ∧ s.isrpos = none ∧ requesting s = false ∧
       s.fgpos = .inOp .kpdGetWait 2) ∧
    (let s := { turnOf (.run 1) with isrpos := some { col := 1, k := 7 } }
     s.sched = [.run 1] ∧ s.isrpos = some { col := 1, k := 7 }) ∧
    (let s := { turnOf (.run 1) with fgpos := .inOp .kpdGetWait 2 }
     s.sched = [.run 1] ∧ s.isrpos = none ∧ s.fgpos = .inOp .kpdGetWait 2) ∧
    (let s := { turnOf (.run 1) with port := [0x01] }
     s.sched = [.run 1] ∧ FgIdle s ∧ decodeHc s.port = .ok (.kpdClear, [])) ∧
    decodeBus 0x001 = .ok .clearDisplay :=
  ⟨fun _ => ⟨rfl, rfl, rfl⟩, rfl, rfl, rfl, by decide, ⟨rfl, by decide, rfl, rfl, by decide, rfl⟩, ⟨rfl, rfl⟩,
    ⟨rfl, rfl, rfl⟩, ⟨rfl, ⟨rfl, rfl⟩, rfl⟩, rfl⟩

theorem test_witness_StopsAreFinal : alreadyStopped (portOf [0x09]) = none ∧
    step (portOf [0x09]) = .refused (.reservedOpcode 0x09 { fgpos := .idle, isrpos := none }) ∧
    (let s := { portOf [] with sched := [.busWord 0x001] }
     alreadyStopped s = none ∧ ∃ f, step s = .fault f) ∧
    (let s := { portOf [] with sched := [.busWord 0x001], dev := { Dev.reset with nibble := true } }
     alreadyStopped s = none ∧ ∃ f, step s = .fault f ∧ f.left.faults.length = 2) :=
  ⟨rfl, rfl, ⟨rfl, _, rfl⟩, ⟨rfl, _, rfl, rfl⟩⟩

/-- The ends of R10's ranges and an address that is no multiple of 4. -/
theorem test_witness_BrokenConfigurationsAreRefused :
    (ShortTime.below 9).micros = 9 ∧ (ShortTime.within 0).micros = 10 ∧ (ShortTime.within 89).micros = 99 ∧
    (ShortTime.above 0).micros = 100 ∧ (LongTime.below 1000).micros = 1000 ∧ (LongTime.within 0).micros = 1001 ∧
    ({ testConfig with tShort := .within 0 }).broken = none ∧ ({ testConfig with tShort := .within 89 }).broken = none ∧
    ({ testConfig with tLong := .within 0 }).broken = none ∧
    ({ testConfig with tShort := .below 9 }).broken = some .tShort ∧
    ({ testConfig with tShort := .above 0 }).broken = some .tShort ∧
    ({ testConfig with tLong := .below 1000 }).broken = some .tLong ∧
    ({ testConfig with regAddr := testConfig.regAddr.set 0 ⟨0, 2⟩ }).broken = some .regAddr ∧
    ({ testConfig with tShort := .above 0, tLong := .below 1000 }).broken = some .tShort ∧
    alreadyStopped (State.resetWith { testConfig with tShort := .below 9 }) = none := by decide

theorem test_witness_PendingLineIsEntered :
    let s := { heldAt 2 1 with quantum := none }
    alreadyStopped s = none ∧ s.cfg.broken = none ∧ s.sched = [] ∧ s.isrpos = none ∧ requesting s = true :=
  ⟨rfl, by decide, rfl, rfl, by decide⟩

theorem test_witness_ResetRestartsTheBlock : ready.cfg.Wired := testConfig_wired

theorem test_witness_EnvironmentSteps :
    (let s := { ready with bouncing := true }
     s.bouncing = true ∧ pinField s.regs.mode (pinOf s.cfg 3).val = modeInput) ∧
    (let s := State.resetWith testConfig; s.lcdPowered = false ∧ s.anyLatch = false ∧ s.lutInstalled = false) ∧
    (let s := { State.resetWith testConfig with anyLatch := true }; s.lcdPowered = false ∧ s.anyLatch = true) ∧
    ready.lcdPowered = true ∧ ({ ready with lutInstalled := true }).lutInstalled = true :=
  ⟨⟨rfl, rfl⟩, ⟨rfl, rfl, rfl⟩, ⟨rfl, rfl⟩, rfl, rfl⟩

theorem test_witness_PendingBitsClearOnWriteOne : (0x2 : Word).getLsbD 0 = false ∧
    (let s := { ready with regs := { testRegs with pr := 0xA } }
     s.regs.pr.getLsbD 0 = false ∧ ∃ t, micro .isr (.ack 1) s = .next t) :=
  ⟨by decide, by decide, nextWith_some (p := fun t => t.regs.pr = 8) (by decide)⟩

theorem test_witness_GatedAccessFaults : clocked (State.resetWith testConfig) .mode = false ∧
    clocked (State.resetWith testConfig) .mux = false ∧ clocked (State.resetWith testConfig) .lodr = false ∧
    (let s := { ready with cfg := sharedConfig }
     s.cfg.Wired ∧ s.cfg.lcdShares = true ∧ s.regs.clken.getLsbD s.cfg.layout.clkKpdPort.val = true ∧
       ∃ t, micro .fg (.write .lmode .lcdOutput) s = .next t) :=
  ⟨rfl, rfl, rfl, sharedConfig_wired, rfl, rfl, nextWith_some (p := fun t => t.highOut) (by decide)⟩

theorem test_witness_InputDataShowsThePins : ready.cfg.Wired ∧ clocked ready .idr = true ∧ 16 ≤ 31 :=
  ⟨testConfig_wired, rfl, by decide⟩

theorem test_witness_EdgeDetectorLatchesRisingEdges : routed ready.cfg.layout ready.regs.mux 3 = true ∧
    routed testLayout (State.resetWith testConfig).regs.mux 3 = false := ⟨rfl, rfl⟩

theorem test_witness_HeldKeysSetTheLevels :
    (let s := heldAt 2 1
     s.cfg.Wired ∧ s.bouncing = false ∧ s.spoiled = 0 ∧ s.regs.pull.extractLsb' 0 16 = 0xAAAA#16 ∧
       s.regs.odr.extractLsb' 0 8 = 0xFF#8 ∧ s.regs.mode.extractLsb' 0 16 = idleMode s.cfg) ∧
    (let s := sampledAt 1 4
     s.cfg.Wired ∧ s.bouncing = false ∧ s.spoiled = 0 ∧ s.regs.pull.extractLsb' 0 16 = 0xAAAA#16 ∧
       s.regs.odr.extractLsb' 0 8 = 0xFF#8 ∧ s.regs.mode.extractLsb' 0 16 = scanMode s.cfg) :=
  ⟨⟨testConfig_wired, by decide⟩, ⟨testConfig_wired, by decide⟩⟩

theorem test_witness_HandlerEntry :
    (let s := { heldAt 2 1 with quantum := some 0 }; s.isrpos = none ∧ req s 1 = true ∧ s.quantum = some 0) ∧
    (ready.isrpos = none ∧ req ready 1 = false) ∧
    ((sampledAt 1 4).isrpos = some { col := 1, k := 7 } ∧ (1 : Col) ≠ 2) ∧
    (Instr.kpdGet.wellFormed = true ∧ Instr.kpdGet.format = .hc ∧ Instr.kpdGet.opcode.getLsbD 7 = false ∧
      ∀ op, Instr.kpdGet ≠ .hcReservedLow op) ∧
    (Instr.lcdClear.wellFormed = true ∧ Instr.lcdClear.format = .hc ∧ Instr.lcdClear.opcode.getLsbD 7 = true ∧
      ∀ op, Instr.lcdClear ≠ .hcReservedHigh op) :=
  ⟨⟨rfl, by decide, rfl⟩, ⟨rfl, by decide⟩, ⟨rfl, by decide⟩, ⟨rfl, rfl, by decide, nofun⟩,
    ⟨rfl, rfl, by decide, nofun⟩⟩

/-- In a bounded turn, and right after reset in the default scheduler's. -/
theorem test_witness_KpdInitArmsThePort : (readyFor 18).cfg.Wired ∧ FgIdle (readyFor 18) ∧ InitRuns (readyFor 18) ∧
    FgIdle (State.resetWith testConfig) ∧ InitRuns (State.resetWith testConfig) :=
  ⟨testConfig_wired, ⟨rfl, rfl⟩, .inl ⟨18, rfl, by decide⟩, ⟨rfl, rfl⟩, .inr ⟨rfl, rfl, rfl, rfl, rfl, rfl⟩⟩

theorem test_witness_OneMicroStepCommands : FgIdle (readyFor 1) ∧ (readyFor 1).kpdInit = true ∧
    mayRun (readyFor 1).quantum (readyFor 1) = true ∧ mayRun resting.quantum resting = true :=
  ⟨⟨rfl, rfl⟩, rfl, rfl, rfl⟩

theorem test_witness_GetCharReturnsTheSlotsCharacter : FgIdle (readyFor 2) ∧ (readyFor 2).kpdInit = true ∧
    RunsFor 2 (readyFor 2) ∧ ({ readyFor 2 with slot := 0 }).slot = 0 := ⟨⟨rfl, rfl⟩, rfl, readyFor_runs (by decide), rfl⟩

theorem test_witness_WaitsClearTheSlotAndPoll : FgIdle (readyFor 2) ∧ (readyFor 2).kpdInit = true ∧
    RunsFor 2 (readyFor 2) ∧ Instr.kpdGetWait ∈ [Instr.kpdWait, .kpdGetWait, .kpdGetCharWait] :=
  ⟨⟨rfl, rfl⟩, rfl, readyFor_runs (by decide), by decide⟩

theorem test_witness_WaitsReturnARecordedKey :
    (let s := { readyFor 1 with fgpos := .inOp .kpdWait 2, slot := 0 }
     s.kpdInit = true ∧ FgAt .kpdWait 2 s ∧ s.slot = 0 ∧ mayRun s.quantum s = true) ∧
    (let s := { readyFor 1 with fgpos := .inOp .kpdWait 2 }; FgAt .kpdWait 2 s ∧ s.slot ≠ 0 ∧ RunsFor 1 s) ∧
    (let s := { readyFor 2 with fgpos := .inOp .kpdGetWait 2 }; FgAt .kpdGetWait 2 s ∧ s.slot ≠ 0 ∧ RunsFor 2 s) ∧
    (let s := { readyFor 3 with fgpos := .inOp .kpdGetCharWait 2 }
     FgAt .kpdGetCharWait 2 s ∧ s.slot ≠ 0 ∧ RunsFor 3 s) :=
  ⟨⟨rfl, ⟨rfl, rfl⟩, rfl, rfl⟩, ⟨⟨rfl, rfl⟩, by decide, .inl ⟨1, rfl, by decide⟩⟩,
    ⟨⟨rfl, rfl⟩, by decide, .inl ⟨2, rfl, by decide⟩⟩, ⟨⟨rfl, rfl⟩, by decide, .inl ⟨3, rfl, by decide⟩⟩⟩

theorem test_witness_ToCharReadsTheTable : 1 ≤ (1 : Fin 17).val ∧ 1 ≤ (16 : Fin 17).val ∧ (0 : Word).toInt ≤ 0 ∧
    (0xFFFFFFFF : Word).toInt ≤ 0 ∧ 16 < (17 : Word).toInt := by decide

theorem test_witness_CommandsNeedTheirInit : FgIdle (State.resetWith testConfig) ∧
    (Instr.kpdGet.format = .hc ∧ Instr.kpdGet ≠ .kpdInit ∧ Instr.kpdGet ≠ .lcdInit ∧
      (∀ op, Instr.kpdGet ≠ .hcReservedLow op) ∧ (∀ op, Instr.kpdGet ≠ .hcReservedHigh op) ∧
      Instr.kpdGet.opcode.getLsbD 7 = false ∧ (State.resetWith testConfig).kpdInit = false) ∧
    (Instr.lcdClear.format = .hc ∧ Instr.lcdClear ≠ .kpdInit ∧ Instr.lcdClear ≠ .lcdInit ∧
      (∀ op, Instr.lcdClear ≠ .hcReservedLow op) ∧ (∀ op, Instr.lcdClear ≠ .hcReservedHigh op) ∧
      Instr.lcdClear.opcode.getLsbD 7 = true ∧ (State.resetWith testConfig).lcdInit = false) :=
  ⟨⟨rfl, rfl⟩,
    ⟨rfl, by decide, by decide, nofun, nofun, by decide, rfl⟩,
    ⟨rfl, by decide, by decide, nofun, nofun, by decide, rfl⟩⟩

theorem test_witness_KeyCodesAndRowTable : 1 ≤ (1 : Byte).toNat ∧ (16 : Byte).toNat ≤ 16 ∧
    (0b0011 : BitVec 4) ≠ 0 ∧ ∀ r : Row, (0b0011 : BitVec 4) ≠ maskBit 4 true r.val := by decide

theorem test_witness_ScanCompletes : (heldAt 2 1).isrpos = none ∧ req (heldAt 2 1) 1 = true ∧
    clocked (heldAt 2 1) .mode = true ∧ ScanRuns (heldAt 2 1) ∧ ScanRuns { heldAt 2 1 with quantum := some 14 } :=
  ⟨rfl, by decide, rfl, .inr ⟨100, rfl, by decide⟩, .inr ⟨14, rfl, by decide⟩⟩

/-- Each clause, with the turns where the phases meet: 0 and 17 of `KPD_INIT`'s 18 micro-steps, 1, 2, 12 and 14 of a
handler's. -/
theorem test_witness_PhaseFollowsTheScan :
    (let s := { State.resetWith testConfig with quantum := some 17 }
     FgIdle s ∧ s.kpdInit = false ∧ s.quantum = some 17 ∧ 0 < 18 ∧ 17 < 18) ∧
    (let s := { State.resetWith testConfig with quantum := some 1, fgpos := .inOp .kpdInit 18 }
     FgAt .kpdInit 18 s ∧ s.kpdInit = false ∧ ∃ m, s.quantum = some m ∧ 1 ≤ m) ∧
    (∀ n, let s := { heldAt 2 1 with quantum := some n }
     s.kpdInit = true ∧ s.isrpos = none ∧ req s 1 = true ∧ clocked s .mode = true ∧ s.quantum = some n) ∧
    (1 < 2 ∧ (2 ≤ 2 ∧ 2 ≤ 12) ∧ (2 ≤ 12 ∧ 12 ≤ 12) ∧ 14 ≤ 14) ∧
    ((sampledAt 1 4).kpdInit = true ∧ (sampledAt 1 4).isrpos = some { col := 1, k := 7 } ∧ 3 ≤ 7 ∧
      clocked (sampledAt 1 4) .mode = true ∧ ScanRuns (sampledAt 1 4)) :=
  ⟨⟨⟨rfl, rfl⟩, rfl, rfl, by decide, by decide⟩, ⟨⟨rfl, rfl⟩, rfl, 1, rfl, by decide⟩,
    fun _ => ⟨rfl, rfl, by have h : req (heldAt 2 1) 1 = true := by decide
                           exact h, by show testRegs.clken.getLsbD 2 = true; decide, rfl⟩,
    by decide, ⟨rfl, rfl, by decide, rfl, .inr ⟨100, rfl, by decide⟩⟩⟩

theorem test_witness_HeldKeyIsRecordedOnce : (heldAt 2 1).cfg.Wired ∧ PortArmed (heldAt 2 1) ∧ Calm (heldAt 2 1) ∧
    (heldAt 2 1).cfg.prLatchWhileMasked = false ∧ (heldAt 2 1).isrpos = none ∧ req (heldAt 2 1) 1 = true ∧
    ScanRuns (heldAt 2 1) :=
  ⟨testConfig_wired, heldAt_armed 2 1, heldAt_calm 2 1, rfl, rfl, by decide, .inr ⟨100, rfl, by decide⟩⟩

theorem test_witness_SampleDecidesTheRecord : (sampledAt 3 8).isrpos = some { col := 3, k := 7 } ∧
    clocked (sampledAt 3 8) .mode = true ∧ ScanRuns (sampledAt 3 8) := ⟨rfl, rfl, .inr ⟨100, rfl, by decide⟩⟩

theorem test_witness_HandlersTouchOnlyTheirCells : (∃ t, exec (isrInstr 1) (heldAt 2 1) = .next t) ∧
    (heldAt 2 1).isrpos = none ∧ ∀ p, (sampledAt 1 4).isrpos = some p → p.k ≠ 4 ∧ p.k ≠ 10 :=
  ⟨nextWith_some (p := fun t => t.slot = 10) (by decide), rfl, by intro p hp; cases hp; decide⟩

theorem test_witness_KeypadCommandFrames :
    (Instr.kpdClear.format = .hc ∧ Instr.kpdClear.opcode.getLsbD 7 = false ∧ Instr.kpdClear ≠ .kpdInit ∧
      ∃ t, exec .kpdClear ready = .next t) ∧ ∃ t, exec .kpdInit ready = .next t :=
  ⟨⟨rfl, by decide, by decide, nextWith_some (p := fun t => t.slot = 0) (by decide)⟩,
    nextWith_some (p := fun t => t.slot = 0) (by decide)⟩

/-- The LCD in the keypad's port, with lines on pins 8 to 18 driven, as `LCD_INIT` leaves them: all of the LCD's
statements hold of it too. -/
theorem test_shared_lcd_can (q : Nat) :
    let s := { readyFor q with cfg := sharedConfig, highOut := true, regs := { testRegs with mode := 0x55555500 } }
    s.cfg.Wired ∧ LcdCan s :=
  ⟨sharedConfig_wired, by show testRegs.clken.getLsbD 2 = true; decide,
    by show ∀ p ∈ sharedConfig.layout.lcdPins, (if p.val < 16 then pinField 0x55555500 p.val == modeOutput else true) = true
       decide, rfl, rfl⟩

/-- In every kind of turn: bounded, unbounded with no line delivered, and in the resting state. -/
theorem test_witness_LcdClearAndHomeComplete : (readyFor 6).cfg.Wired ∧ FgIdle (readyFor 6) ∧
    (readyFor 6).lcdInit = true ∧ LcdCan (readyFor 6) ∧ RunsFor 6 (readyFor 6) ∧ (readyFor 6).dev.n = true ∧
    RunsFor 6 { readyFor 6 with quantum := none, regs := { testRegs with imr := 0 } } ∧
    FgIdle resting ∧ resting.lcdInit = true ∧ RunsFor 6 resting :=
  ⟨testConfig_wired, ⟨rfl, rfl⟩, rfl, readyFor_lcd 6, readyFor_runs (by decide), rfl,
    .inr ⟨rfl, .inl (by show ∀ c : Col, ((0 : Word).getLsbD c.val && _) = false; simp)⟩, ⟨rfl, rfl⟩, rfl, resting_runs 6⟩

theorem test_witness_LcdCursorShowAndHideComplete : (readyFor 6).cfg.Wired ∧ FgIdle (readyFor 6) ∧
    (readyFor 6).lcdInit = true ∧ LcdCan (readyFor 6) ∧ RunsFor 6 (readyFor 6) ∧ (readyFor 6).dev.n = true :=
  ⟨testConfig_wired, ⟨rfl, rfl⟩, rfl, readyFor_lcd 6, readyFor_runs (by decide), rfl⟩

theorem test_witness_LcdInitHandshake :
    let s := { State.resetWith testConfig with quantum := some 35, devBusy := .free }
    s.cfg.Wired ∧ FgIdle s ∧ DeviceTakes s ∧ DelaysCover s.cfg ∧ RunsFor 35 s :=
  ⟨testConfig_wired, ⟨rfl, rfl⟩, ⟨rfl, rfl⟩, by decide, .inl ⟨35, rfl, by decide⟩⟩

theorem test_witness_UnpoweredInitFaults :
    let s := { State.resetWith testConfig with quantum := some 9 }
    s.cfg.Wired ∧ FgIdle s ∧ s.devBusy ≠ .free ∧ s.dev.nibble = false ∧ RunsFor 9 s :=
  ⟨testConfig_wired, ⟨rfl, rfl⟩, by decide, rfl, .inl ⟨9, rfl, by decide⟩⟩

/-- (0, 0) and (39, 1), the ends of the domain (CP1, CP4). -/
theorem test_witness_CursorSetStepsFromHome : (0 : Byte).toNat < 40 ∧ (39 : Byte).toNat < 40 ∧ (1 : Byte).toNat < 2 ∧
    (readyFor 480).cfg.Wired ∧ FgIdle (readyFor 480) ∧ (readyFor 480).lcdInit = true ∧ LcdCan (readyFor 480) ∧
    DelaysCover (readyFor 480).cfg ∧ RunsFor (6 * (1 + (40 * 1 + 39))) (readyFor 480) ∧ (readyFor 480).dev.n = true :=
  ⟨by decide, by decide, by decide, testConfig_wired, ⟨rfl, rfl⟩, rfl, readyFor_lcd 480, by decide,
    readyFor_runs (by decide), rfl⟩

/-- The empty string and 80 characters (CP7, CP8); in two-line mode, in one-line mode, and with CGRAM selected. -/
theorem test_witness_PrintWritesEachCharacter : ([] : List Byte).length ≤ 80 ∧
    (List.replicate 80 (0x78 : Byte)).length ≤ 80 ∧ List.replicate 80 (0x78 : Byte) ≠ [] ∧
    (∀ dv : Dev, dv.nibble = false →
      let s := { readyFor 480 with dev := dv }
      s.cfg.Wired ∧ FgIdle s ∧ s.lcdInit = true ∧ LcdCan s ∧ DelaysCover s.cfg ∧ RunsFor (6 * 80) s) ∧
    (ready.dev.nibble = false ∧ ready.dev.n = true ∧ ready.dev.space = .ddram) ∧
    (Dev.reset.nibble = false ∧ Dev.reset.n = false ∧ Dev.reset.space = .ddram) ∧
    (let dv := { Dev.reset with space := .cgram }; dv.nibble = false ∧ dv.space = .cgram) :=
  ⟨by decide, by decide, by decide,
    fun _ h => ⟨testConfig_wired, ⟨rfl, rfl⟩, rfl,
      ⟨(readyFor_lcd 480).clock, (readyFor_lcd 480).out, rfl, h⟩, by show DelaysCover testConfig; decide, .inl ⟨480, rfl, by decide⟩⟩,
    ⟨rfl, rfl, rfl⟩, ⟨rfl, rfl, rfl⟩, ⟨rfl, rfl⟩⟩

/-- 1, 255 and 256: the ends of the byte range and the first value that is dropped. -/
theorem test_witness_RawWritesSendOneWord : (readyFor 6).cfg.Wired ∧ FgIdle (readyFor 6) ∧
    (readyFor 6).lcdInit = true ∧ LcdCan (readyFor 6) ∧ RunsFor 6 (readyFor 6) ∧ (1 : Word) ≠ 0 ∧
    (1 : Word).toNat ≤ 0xFF ∧ (0xFF : Word).toNat ≤ 0xFF ∧ 0xFF < (0x100 : Word).toNat :=
  ⟨testConfig_wired, ⟨rfl, rfl⟩, rfl, readyFor_lcd 6, readyFor_runs (by decide), by decide, by decide, by decide,
    by decide⟩

theorem test_witness_OperandsOutOfDomainAreRefused : FgIdle ready ∧ ready.lcdInit = true ∧
    (40 ≤ (40 : Byte).toNat ∨ 2 ≤ (0 : Byte).toNat) ∧ (40 ≤ (0 : Byte).toNat ∨ 2 ≤ (2 : Byte).toNat) ∧
    80 < (List.replicate 81 (0x78 : Byte)).length := ⟨⟨rfl, rfl⟩, rfl, by decide, by decide, by decide⟩

theorem test_witness_CursorShiftsReachEveryCell : (38 : Fin 40).val < 39 ∧ (39 : Fin 40).val = 39 ∧
    0 < (1 : Fin 40).val ∧ (0 : Fin 40).val = 0 := by decide

theorem test_witness_LcdCommandFrames : Instr.lcdClear.format = .hc ∧ Instr.lcdClear.opcode.getLsbD 7 = true ∧
    Instr.lcdClear ≠ .lcdInit ∧ ready.cfg.lcdShares = false ∧ (∃ t, exec .lcdClear ready = .next t) ∧
    (sharedConfig.Wired ∧ sharedConfig.lcdShares = true) ∧
    (let s := { ready with cfg := sharedConfig }
     s.fgpos ≠ .inOp .lcdInit 4 ∧ ∃ t, exec .lcdInit s = .next t) :=
  ⟨rfl, by decide, by decide, rfl, nextWith_some (p := fun t => t.slot = 9) (by decide), ⟨sharedConfig_wired, rfl⟩,
    by decide, nextWith_some (p := fun t => t.lcdInit) (by decide)⟩

/-- For the statements about a device that takes a word: `ClearAndHomeWords`, `ModeWordsSetTheFlags`,
`ShiftWordMovesCursorOrDisplay`, `AddressWordsPoint`. -/
theorem test_witness_ClearAndHomeWords : DeviceTakes ready ∧ ready.dev.n = true := ⟨⟨rfl, rfl⟩, rfl⟩

theorem test_witness_ModeWordsSetTheFlags : DeviceTakes ready ∧ ready.dev.n = true := ⟨⟨rfl, rfl⟩, rfl⟩

theorem test_witness_ShiftWordMovesCursorOrDisplay : DeviceTakes ready ∧ ready.dev.n = true := ⟨⟨rfl, rfl⟩, rfl⟩

/-- The four ends of the valid address ranges, and the addresses beside them. -/
theorem test_witness_AddressWordsPoint : DeviceTakes ready ∧ ready.dev.n = true ∧ ready.dev.space = .ddram ∧
    validDdram 0x00 = true ∧ validDdram 0x27 = true ∧ validDdram 0x28 = false ∧ validDdram 0x3F = false ∧
    validDdram 0x40 = true ∧ validDdram 0x67 = true ∧ validDdram 0x68 = false :=
  ⟨⟨rfl, rfl⟩, rfl, rfl, by decide, by decide, by decide, by decide, by decide, by decide, by decide⟩

theorem test_witness_DataWordStoresAndAdvances : DeviceTakes ready ∧ ready.vram.wf ∧ ready.dev.space = .ddram ∧
    ({ ready with dev := { ready.dev with space := .cgram } }).dev.space = .cgram :=
  ⟨⟨rfl, rfl⟩, by decide, rfl, rfl⟩

/-- Busy and in 8-bit mode; free and in 4-bit mode; and both at once, where log 13 chooses. -/
theorem test_witness_LatchFaults : (0x001 : BusWord) ≠ 0 ∧ (0x001 : BusWord).getLsbD 8 = false ∧
    ((State.resetWith testConfig).dev.nibble = false ∧ (State.resetWith testConfig).devBusy ≠ .free) ∧
    (let s := { ready with dev := { ready.dev with nibble := true } }
     s.dev.nibble = true ∧ s.devBusy = .free) ∧
    (let s := { ready with devBusy := .short, dev := { ready.dev with nibble := true } }
     s.dev.nibble = true ∧ s.devBusy ≠ .free) :=
  ⟨by decide, by decide, ⟨rfl, by decide⟩, ⟨rfl, rfl⟩, ⟨rfl, by decide⟩⟩

theorem test_witness_BusWordFrames : (Instr.writeData 0x41).format = .lb ∧ ready.vram.wf ∧
    (∃ t, exec (.writeData 0x41) ready = .next t) ∧ ∃ t, exec .clearDisplay ready = .next t :=
  ⟨rfl, by decide, nextWith_some (p := fun t => t.slot = 9) (by decide),
    nextWith_some (p := fun t => t.slot = 9) (by decide)⟩

/-- The device time just covered and just not. -/
theorem test_witness_SettleDelayFreesTheDevice :
    (let s := { ready with devBusy := .short, cfg := { testConfig with devTShort := 40 } }
     s.devBusy = .short ∧ s.cfg.devTShort ≤ settleTime s.cfg false 0x06) ∧
    (let s := { ready with devBusy := .long, cfg := { testConfig with devTLong := 2000 } }
     s.devBusy = .long ∧ s.cfg.devTLong ≤ settleTime s.cfg false 0x01) ∧
    (let s := { ready with devBusy := .short, cfg := { testConfig with devTShort := 41 } }
     s.devBusy = .short ∧ settleTime s.cfg true 0x06 < s.cfg.devTShort) ∧
    (let s := { ready with devBusy := .long, cfg := { testConfig with devTLong := 2001 } }
     s.devBusy = .long ∧ settleTime s.cfg false 0x02 < s.cfg.devTLong) := by decide

theorem test_witness_MemoryReadsBack : Memory.wf [(3, 0x41), (0x105, 1)] := by decide

theorem test_witness_MemoryStaysCanonical : MemoryLegal { portOf [0x00] with vram := [(3, 0x41)] } ∧
    ∃ t, step { portOf [0x00] with vram := [(3, 0x41)] } = .next t :=
  ⟨by decide, nextWith_some (p := fun t => t.kpdInit) (by decide)⟩

theorem test_witness_SlotStaysAKeyCode : SlotLegal { portOf [0x00] with slot := 16 } ∧
    ∃ t, step { portOf [0x00] with slot := 16 } = .next t :=
  ⟨by decide, nextWith_some (p := fun t => t.kpdInit) (by decide)⟩

theorem test_witness_BusIsOnlyWritten : OnlyWrites { turnOf (.busWord 0x241) with events := [.latch 0x001] } ∧
    ∃ t, step { turnOf (.busWord 0x241) with events := [.latch 0x001] } = .next t :=
  ⟨by intro w hw; simp at hw; subst hw; decide,
    nextWith_some (p := fun t => t.slot = 9) (by decide)⟩

/-- At reset, and with `KPD_INIT` just past K8, where lines are delivered and the keypad is not yet initialized. -/
theorem test_witness_NoHandlerBeforeKpdInit :
    (UndeliveredBeforeInit (portOf [0x00]) ∧ ∃ t, step (portOf [0x00]) = .next t) ∧
    (let s := { turnOf (.run 1) with kpdInit := false, fgpos := .inOp .kpdInit 17 }
     UndeliveredBeforeInit s ∧ irqOn s.cfg.layout s.regs.irqen 0 = true ∧ ∃ t, step s = .next t) ∧
    (portOf []).kpdInit = false ∧ ∀ k, (portOf []).fgpos ≠ .inOp .kpdInit k :=
  ⟨⟨⟨nofun, .inr (.inr (.inr (by show ∀ c, irqOn testLayout 0 c = false; decide)))⟩,
      nextWith_some (p := fun t => t.kpdInit) (by decide)⟩,
    ⟨⟨by decide, .inr (.inl rfl)⟩, rfl, nextWith_some (p := fun t => t.slot = 0) (by decide)⟩, rfl, nofun⟩

/-- A scan that stands at S5 with its lines masked. -/
theorem test_witness_LinesStayMaskedInAScan : ScanMasksTheLines (sampledAt 1 4) ∧
    (∃ t, step (sampledAt 1 4) = .next t) ∧ (sampledAt 1 4).isrpos = some { col := 1, k := 7 } ∧
    MaskedScan { col := 1, k := 7 } ∧ MaskedScan { col := 1, k := 3 } ∧ MaskedScan { col := 1, k := 13 } :=
  ⟨by intro p hp; cases hp; decide, nextWith_some (p := fun t => t.slot = 10) (by decide), rfl, by decide, by decide,
    by decide⟩

theorem test_witness_CellsHaveTheirWriters : (∃ t, exec (.kpdSetCharLut tableT) ready = .next t) ∧
    Instr.kpdClear.format ≠ .irq ∧ (∃ t, exec .kpdClear ready = .next t) ∧
    ∃ t, exec (isrInstr 3) (heldAt 3 3) = .next t :=
  ⟨nextWith_some (p := fun t => t.lut = tableT) (by decide), by decide,
    nextWith_some (p := fun t => t.slot = 0) (by decide), nextWith_some (p := fun t => t.slot = 16) (by decide)⟩

theorem test_witness_ConfigurationIsFixed : ∃ t, step (portOf [0x00]) = .next t :=
  nextWith_some (p := fun t => t.kpdInit) (by decide)

end Sys2Proof.Machine
end

section
/-! PROOFS. The statements of 00_scope: no step changes the configuration (R9), which configurations are refused (R10,
R85), and whose turn a step is (R8, R273–R275). -/

namespace Sys2Proof.Machine

variable {s t u : State}

/-! ### What a word can write (R221, R223–R231) -/

/-- `t` is `s` but for the device's memories, its own state and the stamp of the free values. -/
def DeviceWrites (s t : State) : Prop := ∃ m d n, t = { s with vram := m, dev := d, draws := n }

theorem DeviceWrites.trans (h : DeviceWrites s t) (h' : DeviceWrites t u) : DeviceWrites s u := by
  obtain ⟨_, _, _, rfl⟩ := h
  obtain ⟨m, d, n, rfl⟩ := h'
  exact ⟨m, d, n, rfl⟩

theorem DeviceWrites.cfg (h : DeviceWrites s t) : t.cfg = s.cfg := by
  obtain ⟨_, _, _, rfl⟩ := h
  rfl

theorem strayCursor_deviceWrites (s : State) : DeviceWrites s s.strayCursor := by
  unfold State.strayCursor
  split <;> exact ⟨_, _, _, rfl⟩

theorem ddramAddrEffect_deviceWrites (a : BitVec 7) (s : State) : DeviceWrites s (ddramAddrEffect a s) := by
  unfold ddramAddrEffect
  split <;> exact ⟨_, _, _, rfl⟩

theorem writeDataEffect_deviceWrites (b : Byte) (s : State) : DeviceWrites s (writeDataEffect b s) := by
  unfold writeDataEffect
  split <;> exact ⟨_, _, _, rfl⟩

theorem cursorShiftEffect_deviceWrites (sc rl : Bool) (s : State) : DeviceWrites s (cursorShiftEffect sc rl s) := by
  unfold cursorShiftEffect
  split <;> exact ⟨_, _, _, rfl⟩

/-- A latched word whose effect writes the device alone leaves the rest as latching it does. -/
theorem latch_deviceWrites {w : BusWord} {f : State → State} (hf : ∀ v, DeviceWrites v (f v))
    (h : latch w f s = .next t) : DeviceWrites (s.latched w) t := by
  obtain ⟨-, -, rfl⟩ := latch_next h
  exact (hf _).trans (strayCursor_deviceWrites _)

/-- What a bus word's instruction can write, whichever it is: it is latched, and the device writes what is its own. -/
theorem deviceExec_deviceWrites {i : Instr} (h : deviceExec i s = .next t) :
    DeviceWrites (s.latched (lbWord i)) t := by
  cases i with
  | clearDisplay | returnHome _ | entryModeSet _ _ | displayControl _ _ _ | functionSet _ _ _ _ | setCgramAddr _ =>
    exact latch_deviceWrites (fun _ => ⟨_, _, _, rfl⟩) h
  | cursorDisplayShift sc rl _ => exact latch_deviceWrites (cursorShiftEffect_deviceWrites sc rl) h
  | setDdramAddr a => exact latch_deviceWrites (ddramAddrEffect_deviceWrites a) h
  | writeData b => exact latch_deviceWrites (writeDataEffect_deviceWrites b) h
  | _ => cases h

/-- A word that the device takes off the lines is an instruction's. -/
theorem latchWord_next {w : BusWord} (h : latchWord w s = .next t) :
    ∃ i, decodeBus w = .ok i ∧ deviceExec i s = .next t := by
  unfold latchWord at h
  split at h
  · exact ⟨_, ‹_›, h⟩
  · cases h

/-- `BusSet(E, b)` changes the line, and where a driven `E` falls the device takes the word that the lines show. -/
theorem busEnable_next {b : Bool} (h : busEnable b s = .next t) :
    ∃ v, busLine (fun w => setBit w s.cfg.layout.lcdE.val b) s = .next v ∧
      (t = v ∨ enableHigh s = true ∧ b = false ∧ latchWord (busLevels v) v = .next t) := by
  unfold busEnable at h
  split at h
  · rename_i v hv
    refine ⟨v, hv, ?_⟩
    split at h
    · rename_i hb
      simp only [Bool.and_eq_true, Bool.not_eq_true'] at hb
      exact .inr ⟨hb.1, hb.2, h⟩
    · cases h
      exact .inl rfl
  · cases h
  · cases h

/-! ### The configuration is kept (R9) -/

theorem deviceExec_cfg {i : Instr} (h : deviceExec i s = .next t) : t.cfg = s.cfg :=
  (deviceExec_deviceWrites h).cfg

theorem busLine_cfg {f : Word → Word} (h : busLine f s = .next t) : t.cfg = s.cfg := by
  rw [busLine_next h]

theorem busEnable_cfg {b : Bool} (h : busEnable b s = .next t) : t.cfg = s.cfg := by
  obtain ⟨v, hv, rfl | ⟨-, -, hw⟩⟩ := busEnable_next h
  · exact busLine_cfg hv
  · obtain ⟨i, -, hi⟩ := latchWord_next hw
    exact (deviceExec_cfg hi).trans (busLine_cfg hv)

@[simp] theorem setLocalT_cfg (x : Ctx) (v : Word) (s : State) : (setLocalT x v s).cfg = s.cfg := by cases x <;> rfl

@[simp] theorem recordKey_cfg (c : Col) (s : State) : (recordKey c s).cfg = s.cfg := by
  unfold recordKey
  split <;> rfl

theorem microRead_cfg {x : Ctx} {r : Role} (h : microRead x r s = .next t) : t.cfg = s.cfg := by
  rcases regRead_cases r s with ⟨-, h'⟩ | ⟨-, h'⟩ <;> rw [microRead, h'] at h <;> cases h
  exact setLocalT_cfg x _ s

theorem sampleRows_cfg (h : sampleRows s = .next t) : t.cfg = s.cfg := by
  rcases regRead_cases .idr s with ⟨-, h'⟩ | ⟨-, h'⟩ <;> rw [sampleRows, h'] at h <;> cases h
  rfl

/-- No micro-step writes the configuration: those that access registers or the bus by their operation's lemma, the
others by the cell that they write. -/
theorem micro_cfg {x : Ctx} {m : Micro} (h : micro x m s = .next t) : t.cfg = s.cfg := by
  cases m with
  | read r => exact microRead_cfg h
  | write r upd => rw [regUpdate_next h]; rfl
  | busE b => exact busEnable_cfg h
  | busRs _ | busRw _ | busD _ => rw [micro] at h; exact busLine_cfg h
  | sample => exact sampleRows_cfg h
  | record c => cases h; exact recordKey_cfg c s
  | ack c => rw [micro] at h; rw [regWrite_next h]
  | clearSlot | readSlot | returnSlot | pollSlot | returnCharOfV | returnCharOf _ | setLut _ | setKpdInit | setLcdInit
  | settleDelay _ _ | debounce | lookup => cases h; rfl

@[simp] theorem powerLcd_cfg (s : State) : (powerLcd s).cfg = s.cfg := by
  unfold powerLcd
  split <;> rfl

/-- The environment does not write the configuration; reset restarts the block with its own (R300). -/
theorem envStep_cfg {e : EnvStep} (h : envStep e s = .next t) : t.cfg = s.cfg := by
  cases e with
  | key _ _ _ | bounce _ | reset => cases h; rfl
  | lcdPowered => cases h; exact powerLcd_cfg s
  | tableChanged =>
    simp only [envStep] at h
    split at h <;> cases h
    rfl

/-- "The configuration is `c`" is kept by whatever a step is made of. -/
theorem keptByStep_cfg (c : Config) : KeptByStep (fun s => s.cfg = c) where
  fgpos _ _ h := h
  isrpos _ _ h := h
  turnOver _ h := h
  accept _ h := h
  settle _ h := h
  micro _ _ _ _ h hm := (micro_cfg hm).trans h
  device _ _ _ h hd := (deviceExec_cfg hd).trans h
  quantum _ _ h := h
  port _ _ h := h
  sched _ _ h := h
  env _ _ _ h he := (envStep_cfg he).trans h

/-- Settles O60: the configuration is kept by every part of a step, so by the step. -/
theorem configurationIsFixed : Obligations.ConfigurationIsFixed := by
  unfold Obligations.ConfigurationIsFixed
  intro s t h
  exact step_keeps (keptByStep_cfg s.cfg) rfl h

/-! ### Whose turn it is (R8, R273–R275) -/

/-- A running handler is the executing context (R274). -/
theorem context_handler {p : IsrPos} (h : s.isrpos = some p) : context s = exec (isrInstr p.col) s := by
  simp [context, h]

/-- With no handler running an operation in progress is (R49). -/
theorem context_goes_on {i : Instr} {k : Nat} (h : FgAt i k s) : context s = exec i s := by
  simp [context, h.1, foreground_goes_on h.2]

/-- With neither, the next command of the port is accepted in the context (R100). -/
theorem context_accepts {i : Instr} {rest : List Byte} (h : FgIdle s) (hd : decodeHc s.port = .ok (i, rest)) :
    context s = exec i { s with port := rest } := by
  simp [context, h.1, foreground_accepts h.2 hd]

/-- The default scheduler lets a running handler go on (R274). -/
theorem defaultTurn_handler {p : IsrPos} (h : s.isrpos = some p) : defaultTurn s = exec (isrInstr p.col) s := by
  simp [defaultTurn, h]

/-- With no handler running and no line requesting it lets the foreground move (R273, R275). -/
theorem defaultTurn_foreground (h : s.isrpos = none) (hr : requesting s = false) : defaultTurn s = foreground s := by
  simp [defaultTurn, h, pickLine_none hr]

/-- A word that decodes is its instruction's execution. -/
theorem busRequest_decoded {w : BusWord} {i : Instr} (h : decodeBus w = .ok i) (s : State) :
    busRequest w s = exec i s := by
  simp [busRequest, h]

/-- Settles O6: a step is the default scheduler's turn or the turn laid down, and each of those by its lemma. -/
theorem stepTakesTheTurn : Obligations.StepTakesTheTurn := by
  unfold Obligations.StepTakesTheTurn
  intro s h1 h2
  refine ⟨?_, ?_, ?_, ?_, ?_, ?_, ?_⟩
  · intro h3 p hp
    exact (step_default h1 h2 h3).trans (defaultTurn_handler hp)
  · intro h3 hi hr i k hf
    rw [step_default h1 h2 h3, defaultTurn_foreground hi hr, foreground_goes_on hf]
  · intro rest n h3
    refine ⟨?_, ?_, ?_⟩
    · intro p hp
      exact (step_turn h1 h2 h3).trans (context_handler hp)
    · intro hi i k hf
      exact (step_turn h1 h2 h3).trans (context_goes_on ⟨hi, hf⟩)
    · intro hi i r hd
      exact (step_turn h1 h2 h3).trans (context_accepts hi hd)
  · intro rest c n h3
    exact step_turn h1 h2 h3
  · intro rest w i h3 hd
    exact (step_turn h1 h2 h3).trans (busRequest_decoded hd _)
  · intro rest e h3
    exact step_turn h1 h2 h3
  · intro rest bytes h3
    exact step_turn h1 h2 h3

/-! ### Broken configurations (R10, R85, R263) -/

/-- An address is aligned exactly where it is the first byte of its word. -/
theorem regAddr_aligned_iff (a : RegAddr) : a.value % 4 = 0 ↔ a.byte = 0 := by
  have := a.byte.isLt
  rw [RegAddr.value, Fin.ext_iff, Fin.val_zero]
  omega

/-- Some address is not aligned: the test of `Config.broken`. -/
theorem misaligned_iff (l : List RegAddr) :
    l.any (fun a => a.byte != 0) = true ↔ ¬ ∀ a ∈ l, a.value % 4 = 0 := by
  simp [regAddr_aligned_iff]

/-- Only the middle part of `ShortTime` keeps R10's range. -/
theorem shortTime_kept_iff (d : ShortTime) : (10 ≤ d.micros ∧ d.micros < 100) ↔ ∃ n, d = .within n := by
  cases d with
  | below n => have := n.isLt; simp only [ShortTime.micros, reduceCtorEq, exists_false, iff_false]; omega
  | within n => have := n.isLt; simp only [ShortTime.micros, ShortTime.within.injEq, exists_eq', iff_true]; omega
  | above n => simp only [ShortTime.micros, reduceCtorEq, exists_false, iff_false]; omega

/-- Only the upper part of `LongTime` keeps R10's bound. -/
theorem longTime_kept_iff (d : LongTime) : 1000 < d.micros ↔ ∃ n, d = .within n := by
  cases d with
  | below n => have := n.isLt; simp only [LongTime.micros, reduceCtorEq, exists_false, iff_false]; omega
  | within n => simp only [LongTime.micros, LongTime.within.injEq, exists_eq', iff_true]; omega

/-- `Config.broken` by the constraints' own words: `T_SHORT` first, then `T_LONG`, then `REG_ADDR` (log 41). -/
theorem broken_eq (c : Config) :
    c.broken =
      if 10 ≤ c.tShort.micros ∧ c.tShort.micros < 100 then
        if 1000 < c.tLong.micros then
          if ∀ a ∈ c.regAddr.toList, a.value % 4 = 0 then none else some .regAddr
        else some .tLong
      else some .tShort := by
  rw [Config.broken]
  cases c.tShort with
  | below _ | above _ => simp [shortTime_kept_iff]
  | within n =>
    cases c.tLong with
    | below _ => simp [shortTime_kept_iff, longTime_kept_iff]
    | within m =>
      rw [if_pos ((shortTime_kept_iff _).2 ⟨n, rfl⟩), if_pos ((longTime_kept_iff _).2 ⟨m, rfl⟩)]
      by_cases ha : ∀ a ∈ c.regAddr.toList, a.value % 4 = 0
      · rw [if_neg (fun h => (misaligned_iff _).1 h ha), if_pos ha]
      · rw [if_pos ((misaligned_iff _).2 ha), if_neg ha]

/-- A machine that has not stopped and whose configuration is broken has its step refused (R10, R85). -/
theorem step_broken {p : Param} (h1 : alreadyStopped s = none) (h2 : s.cfg.broken = some p) :
    step s = .refused (.badConfig p s.pos) := by
  simp [step, schedule, h1, h2]

/-- Settles O8: the four outcomes are the branches of `broken_eq`. -/
theorem brokenConfigurationsAreRefused : Obligations.BrokenConfigurationsAreRefused := by
  unfold Obligations.BrokenConfigurationsAreRefused
  refine ⟨fun c => ?_, fun s p h1 h2 => step_broken h1 h2⟩
  simp only [broken_eq]
  by_cases short : 10 ≤ c.tShort.micros ∧ c.tShort.micros < 100
  · by_cases long : 1000 < c.tLong.micros
    · simp [short, long]
    · simp [short, long]
  · simp [short]

end Sys2Proof.Machine
end

section
/-! PROOFS. The statements of 10_state: the registers, the cells and their writers, reset, the environment and the
keypad's phase. -/

namespace Sys2Proof.Machine

variable {s t u : State}

/-! ### Roles and clocks (R36, R37, R314) -/

theorem portRole_eq_pr_iff (shares : Bool) (r : Role) : portRole shares r = .pr ↔ r = .pr := by
  cases r <;> cases shares <;> decide

theorem portRole_eq_clken_iff (shares : Bool) (r : Role) : portRole shares r = .clken ↔ r = .clken := by
  cases r <;> cases shares <;> decide

/-- A write of a role stores in that role's register alone. -/
theorem storeRole_get_of_ne {shares : Bool} {r q : Role} (h : portRole shares r ≠ q) (v : Word) (g : Regs) :
    (storeRole shares r v g).get q = g.get q := by
  unfold storeRole
  split
  · subst r
    exact Regs.get_set_of_ne _ h.symm _
  · exact Regs.get_set_of_ne _ h.symm _

/-- No write of any role sets a pending bit (R45). -/
theorem storeRole_pr_getLsbD {shares : Bool} (r : Role) (v : Word) {g : Regs} {i : Nat}
    (h : g.pr.getLsbD i = false) : (storeRole shares r v g).pr.getLsbD i = false := by
  by_cases hr : r = .pr
  · subst hr
    simp [storeRole, Regs.set, h]
  · have hp : (storeRole shares r v g).pr = g.pr :=
      storeRole_get_of_ne (q := .pr) (fun h' => hr ((portRole_eq_pr_iff ..).1 h')) v g
    rw [hp, h]

/-- Which clocks run is read off `CLKEN` and the configuration. -/
theorem clocked_congr (hc : t.cfg = s.cfg) (hk : t.regs.clken = s.regs.clken) (r : Role) :
    clocked t r = clocked s r := by
  cases r <;> simp only [clocked, hc, hk]

/-! ### What a micro-step writes -/

/-- The role whose register a micro-step accesses (R81, R82); the LCD's lines change through `LODR`. -/
def Micro.role : Micro → Option Role
  | .read r | .write r _ => some r
  | .sample => some .idr
  | .ack _ => some .pr
  | .busE _ | .busRs _ | .busRw _ | .busD _ => some .lodr
  | .clearSlot | .readSlot | .returnSlot | .pollSlot | .returnCharOfV | .returnCharOf _ | .setLut _ | .setKpdInit
  | .setLcdInit | .settleDelay _ _ | .debounce | .lookup | .record _ => none

/-- A micro-step accesses its role's register by a write (R82). -/
def Micro.isWrite : Micro → Bool
  | .write _ _ | .ack _ | .busE _ | .busRs _ | .busRw _ | .busD _ => true
  | .read _ | .sample | .clearSlot | .readSlot | .returnSlot | .pollSlot | .returnCharOfV | .returnCharOf _
  | .setLut _ | .setKpdInit | .setLcdInit | .settleDelay _ _ | .debounce | .lookup | .record _ => false

/-- A micro-step writes the slot, the character table or `kpd_init` (R31, R33, R51). -/
def Micro.writesCell : Micro → Bool
  | .clearSlot | .setLut _ | .setKpdInit | .record _ => true
  | .read _ | .write _ _ | .readSlot | .returnSlot | .pollSlot | .returnCharOfV | .returnCharOf _ | .setLcdInit
  | .busE _ | .busRs _ | .busRw _ | .busD _ | .settleDelay _ _ | .debounce | .sample | .lookup | .ack _ => false

/-- The slot, the character table and `kpd_init` as before. -/
structure CellsKept (s t : State) : Prop where
  slot : t.slot = s.slot
  lut : t.lut = s.lut
  kpdInit : t.kpdInit = s.kpdInit

/-- The registers as before, or the micro-step's own role written (R82). -/
def RegsAfter (m : Micro) (s t : State) : Prop :=
  t.regs = s.regs ∨
    m.isWrite = true ∧ ∃ r v, m.role = some r ∧ t.regs = storeRole s.cfg.lcdShares r v s.regs

theorem DeviceWrites.regs (h : DeviceWrites s t) : t.regs = s.regs := by
  obtain ⟨_, _, _, rfl⟩ := h
  rfl

theorem DeviceWrites.cells (h : DeviceWrites s t) : CellsKept s t := by
  obtain ⟨_, _, _, rfl⟩ := h
  exact ⟨rfl, rfl, rfl⟩

/-- What a bus word's instruction leaves of the block: registers and cells. -/
theorem deviceExec_cells {i : Instr} (h : deviceExec i s = .next t) : CellsKept s t :=
  have hw := (deviceExec_deviceWrites h).cells
  ⟨hw.slot, hw.lut, hw.kpdInit⟩

theorem deviceExec_regs {i : Instr} (h : deviceExec i s = .next t) : t.regs = s.regs :=
  (deviceExec_deviceWrites h).regs

theorem busLine_cells {f : Word → Word} (h : busLine f s = .next t) : CellsKept s t := by
  rw [busLine_next h]
  exact ⟨rfl, rfl, rfl⟩

theorem busLine_regs {f : Word → Word} (h : busLine f s = .next t) :
    ∃ v, t.regs = storeRole s.cfg.lcdShares .lodr v s.regs := by
  rw [busLine] at h
  exact ⟨_, by rw [regWrite_next h]⟩

/-- A latch on the way leaves registers and cells as the line's change does. -/
theorem busEnable_next_line {b : Bool} (h : busEnable b s = .next t) :
    ∃ v, busLine (fun w => setBit w s.cfg.layout.lcdE.val b) s = .next v ∧ t.regs = v.regs ∧ CellsKept v t := by
  obtain ⟨v, hv, rfl | ⟨-, -, hw⟩⟩ := busEnable_next h
  · exact ⟨_, hv, rfl, rfl, rfl, rfl⟩
  · obtain ⟨i, -, hi⟩ := latchWord_next hw
    exact ⟨v, hv, deviceExec_regs hi, deviceExec_cells hi⟩

theorem setLocalT_cells (x : Ctx) (v : Word) (s : State) : CellsKept s (setLocalT x v s) := by
  cases x <;> exact ⟨rfl, rfl, rfl⟩

@[simp] theorem setLocalT_regs (x : Ctx) (v : Word) (s : State) : (setLocalT x v s).regs = s.regs := by cases x <;> rfl

@[simp] theorem recordKey_regs (c : Col) (s : State) : (recordKey c s).regs = s.regs := by
  unfold recordKey
  split <;> rfl

/-- Where a read answers a next state, the context's `t` changed and nothing else. -/
theorem microRead_next {x : Ctx} {r : Role} (h : microRead x r s = .next t) : t = setLocalT x (roleValue s r) s := by
  rcases regRead_cases r s with ⟨-, h'⟩ | ⟨-, h'⟩ <;> rw [microRead, h'] at h <;> cases h
  rfl

/-- Where the sample is taken, `IDR` is read into the handler's locals with one more draw, and nothing else changed. -/
theorem sampleRows_next (h : sampleRows s = .next t) :
    t = { s with isrT := idrWord s, isrS := rowSample s.cfg (pinLevels s), draws := s.draws + 1 } := by
  rcases regRead_cases .idr s with ⟨-, h'⟩ | ⟨-, h'⟩ <;> rw [sampleRows, h'] at h <;> cases h
  rfl

/-- A micro-step writes no register, or its own role's. -/
theorem micro_regs {x : Ctx} {m : Micro} (h : micro x m s = .next t) : RegsAfter m s t := by
  cases m with
  | read r => rw [micro] at h; rw [microRead_next h]; exact .inl (setLocalT_regs ..)
  | sample => rw [micro] at h; rw [sampleRows_next h]; exact .inl rfl
  | record c => cases h; exact .inl (recordKey_regs c s)
  | write r upd => rw [micro] at h; rw [regUpdate_next h]; exact .inr ⟨rfl, r, _, rfl, rfl⟩
  | ack c => rw [micro] at h; rw [regWrite_next h]; exact .inr ⟨rfl, .pr, _, rfl, rfl⟩
  | busRs _ | busRw _ | busD _ =>
    rw [micro] at h
    obtain ⟨v, hv⟩ := busLine_regs h
    exact .inr ⟨rfl, .lodr, v, rfl, hv⟩
  | busE b =>
    obtain ⟨u, hu, hr, -⟩ := busEnable_next_line h
    obtain ⟨v, hv⟩ := busLine_regs hu
    exact .inr ⟨rfl, .lodr, v, rfl, hr.trans hv⟩
  | clearSlot | readSlot | returnSlot | pollSlot | returnCharOfV | returnCharOf _ | setLut _ | setKpdInit | setLcdInit
  | settleDelay _ _ | debounce | lookup => cases h; exact .inl rfl

/-- A micro-step that is no write of a cell keeps them all. -/
theorem micro_cells {x : Ctx} {m : Micro} (h : micro x m s = .next t) (hm : m.writesCell = false) : CellsKept s t := by
  cases m with
  | read r => rw [micro] at h; rw [microRead_next h]; exact setLocalT_cells ..
  | sample => rw [micro] at h; rw [sampleRows_next h]; exact ⟨rfl, rfl, rfl⟩
  | write r upd => rw [micro] at h; rw [regUpdate_next h]; exact ⟨rfl, rfl, rfl⟩
  | ack c => rw [micro] at h; rw [regWrite_next h]; exact ⟨rfl, rfl, rfl⟩
  | busRs _ | busRw _ | busD _ => rw [micro] at h; exact busLine_cells h
  | busE b =>
    obtain ⟨v, hv, -, hc⟩ := busEnable_next_line h
    rw [busLine_next hv] at hc
    exact ⟨hc.slot, hc.lut, hc.kpdInit⟩
  | clearSlot | setLut _ | setKpdInit | record _ => cases hm
  | readSlot | returnSlot | pollSlot | returnCharOfV | returnCharOf _ | setLcdInit | settleDelay _ _ | debounce
  | lookup => cases h; exact ⟨rfl, rfl, rfl⟩

/-- L1 alone writes the table (R33, R147). -/
theorem micro_lut {x : Ctx} {m : Micro} (h : micro x m s = .next t) :
    t.lut = s.lut ∨ ∃ table, m = .setLut table ∧ t.lut = table := by
  by_cases hm : m.writesCell = false
  · exact .inl (micro_cells h hm).lut
  · cases m with
    | setLut table => cases h; exact .inr ⟨table, rfl, rfl⟩
    | record c => cases h; left; unfold recordKey; split <;> rfl
    | clearSlot | setKpdInit => cases h; exact .inl rfl
    | _ => exact absurd rfl hm

/-- K9, C1 and W1 write 0 to the slot, the record of a column a key of that column (R31, R151). -/
theorem micro_slot {x : Ctx} {m : Micro} (h : micro x m s = .next t) :
    t.slot = s.slot ∨ (m = .clearSlot ∧ t.slot = 0) ∨ ∃ c r, m = .record c ∧ t.slot = keyCode r c := by
  by_cases hm : m.writesCell = false
  · exact .inl (micro_cells h hm).slot
  · cases m with
    | clearSlot => cases h; exact .inr (.inl ⟨rfl, rfl⟩)
    | record c =>
      cases h
      unfold recordKey
      split
      · exact .inr (.inr ⟨c, _, rfl, rfl⟩)
      · exact .inl rfl
    | setLut _ | setKpdInit => cases h; exact .inl rfl
    | _ => exact absurd rfl hm

/-- No micro-step sets a pending bit (R45). -/
theorem micro_pr {x : Ctx} {m : Micro} (h : micro x m s = .next t) {i : Nat} (hi : s.regs.pr.getLsbD i = false) :
    t.regs.pr.getLsbD i = false := by
  rcases micro_regs h with hr | ⟨-, r, v, -, hr⟩
  · rw [hr, hi]
  · rw [hr]
    exact storeRole_pr_getLsbD r v hi

/-- A micro-step that is no write of `CLKEN` keeps every clock as it is. -/
theorem micro_clocked {x : Ctx} {m : Micro} (h : micro x m s = .next t)
    (hm : m.isWrite = true → m.role ≠ some .clken) (r : Role) : clocked t r = clocked s r := by
  refine clocked_congr (micro_cfg h) ?_ r
  rcases micro_regs h with hr | ⟨hw, q, v, hq, hr⟩
  · rw [hr]
  · rw [hr]
    have hne : q ≠ .clken := fun h' => hm hw (h' ▸ hq)
    exact storeRole_get_of_ne (q := .clken) (fun h' => hne ((portRole_eq_clken_iff ..).1 h')) v _

/-! ### `PR` (R45) -/

theorem regRead_pr (s : State) : regRead .pr s = .ok s.regs.pr := rfl

theorem regWrite_pr (w : Word) (s : State) :
    regWrite .pr w s = .next { s with regs := { s.regs with pr := s.regs.pr &&& ~~~w } } := rfl

/-- A written 0 keeps its bit. -/
theorem clear_keeps_unwritten (p w : Word) {i : Nat} (h : w.getLsbD i = false) :
    (p &&& ~~~w).getLsbD i = p.getLsbD i := by
  by_cases hi : i < 32
  · rw [BitVec.getLsbD_and, BitVec.getLsbD_not, h, decide_eq_true hi]
    simp
  · rw [BitVec.getLsbD_of_ge _ i (by omega), BitVec.getLsbD_of_ge _ i (by omega)]

/-- Settles O13: the read and the write of `PR` by their definition, and every micro-step by `micro_pr`. -/
theorem pendingBitsClearOnWriteOne : Obligations.PendingBitsClearOnWriteOne := by
  unfold Obligations.PendingBitsClearOnWriteOne
  intro s w
  exact ⟨regRead_pr s, regWrite_pr w s, fun _ h => clear_keeps_unwritten _ w h, fun _ _ _ h _ hi => micro_pr h hi⟩

/-! ### `IDR` (R41, R81, R82) -/

/-- Different keypad lines stand on different pins. -/
theorem pinOf_inj {c : Config} (h : c.keypadPins.toList.Nodup) {k l : Line}
    (hkl : (pinOf c k).val = (pinOf c l).val) : k = l := by
  have := (List.nodup_iff_injective_get.1 h) (a₁ := ⟨k.val, by simp⟩) (a₂ := ⟨l.val, by simp⟩)
    (by simpa [pinOf] using Fin.ext hkl)
  ext
  simpa using this

/-- The bit of one line's level at another line's pin. -/
theorem levelBit_getLsbD (h : s.cfg.keypadPins.toList.Nodup) (k l : Line) :
    (levelBit s k).getLsbD (pinOf s.cfg l).val = (decide (l = k) && level s k) := by
  have hp : (pinOf s.cfg l).val = (pinOf s.cfg k).val ↔ l = k :=
    ⟨pinOf_inj h, fun h' => h' ▸ rfl⟩
  rw [levelBit, maskBit_getLsbD, decide_eq_true (pinOf s.cfg l).isLt, Bool.and_true, Bool.and_comm]
  simp only [hp]

/-- `IDR[7:0]` has each line's level at its pin. -/
theorem pinLevels_getLsbD (h : s.cfg.keypadPins.toList.Nodup) (l : Line) :
    (pinLevels s).getLsbD (pinOf s.cfg l).val = level s l := by
  simp only [pinLevels, BitVec.getLsbD_or, levelBit_getLsbD h]
  fin_cases l <;> simp

theorem idrWord_getLsbD_low (s : State) {i : Nat} (h : i < 8) : (idrWord s).getLsbD i = (pinLevels s).getLsbD i := by
  rw [idrWord, BitVec.getLsbD_append, if_pos h]

theorem idrWord_getLsbD_high (s : State) {i : Nat} (h : 16 ≤ i) : (idrWord s).getLsbD i = false := by
  rw [idrWord, BitVec.getLsbD_append, if_neg (by omega), BitVec.getLsbD_append, if_neg (by omega)]
  simp

/-- Settles O15: `IDR` reads as the pins' levels, each at its own pin, and is not written. -/
theorem inputDataShowsThePins : Obligations.InputDataShowsThePins := by
  unfold Obligations.InputDataShowsThePins
  intro s ⟨hpins, _⟩ hclk
  refine ⟨?_, ?_, ?_, ?_⟩
  · simp [regRead, hclk, roleValue]
  · intro l
    rw [idrWord_getLsbD_low s (pinOf s.cfg l).isLt, pinLevels_getLsbD hpins]
  · exact fun i hi => idrWord_getLsbD_high s hi
  · intro v
    simp [regWrite, hclk]

/-! ### The cells and their writers (R30 to R33, R145) -/

/-- The micro-steps of each host command; an event or a bus word is none. -/
def commandProgram : Instr → List Micro
  | .kpdInit => kpdInitProgram
  | .kpdClear => kpdClearProgram
  | .kpdGet => kpdGetProgram
  | .kpdWait => kpdWaitProgram
  | .kpdGetWait => kpdGetWaitProgram
  | .kpdGetChar => kpdGetCharProgram
  | .kpdGetCharWait => kpdGetCharWaitProgram
  | .kpdToChar key => kpdToCharProgram key
  | .kpdSetCharLut table => kpdSetCharLutProgram table
  | .lcdInit => lcdInitProgram
  | .lcdClear => lcdClearProgram
  | .lcdHome => lcdHomeProgram
  | .lcdCursorSet x y => lcdCursorSetProgram x y
  | .lcdCursorShow => lcdCursorShowProgram
  | .lcdCursorHide => lcdCursorHideProgram
  | .lcdPrint str => lcdPrintProgram str
  | .lcdWriteInstr v => lcdWriteInstrProgram v
  | .lcdWriteData v => lcdWriteDataProgram v
  | .hcReservedLow _ | .hcReservedHigh _ | .kpdIsrCol0 | .kpdIsrCol1 | .kpdIsrCol2 | .kpdIsrCol3
  | .clearDisplay | .returnHome _ | .entryModeSet _ _ | .displayControl _ _ _ | .cursorDisplayShift _ _ _
  | .functionSet _ _ _ _ | .setCgramAddr _ | .setDdramAddr _ | .writeData _ | .readBfAc _ | .readData _ => []

/-- A command that answers a next state runs its own micro-steps, after its checks. -/
theorem exec_command {i : Instr} (hi : i.format = .hc) (h : exec i s = .next t) :
    ∃ checks, hostCommand i checks (commandProgram i) s = .next t := by
  cases i with
  | kpdInit | lcdInit => exact ⟨fun _ => none, h⟩
  | kpdClear | kpdGet | kpdWait | kpdGetWait | kpdGetChar | kpdGetCharWait | kpdToChar _ | kpdSetCharLut _
  | lcdClear | lcdHome | lcdCursorSet _ _ | lcdCursorShow | lcdCursorHide | lcdPrint _ | lcdWriteInstr _
  | lcdWriteData _ => exact ⟨_, h⟩
  | hcReservedLow _ | hcReservedHigh _ => cases h
  | _ => cases hi

/-- An event is some line's. -/
theorem isrInstr_of_format {i : Instr} (h : i.format = .irq) : ∃ c, i = isrInstr c := by
  cases i with
  | kpdIsrCol0 => exact ⟨0, rfl⟩
  | kpdIsrCol1 => exact ⟨1, rfl⟩
  | kpdIsrCol2 => exact ⟨2, rfl⟩
  | kpdIsrCol3 => exact ⟨3, rfl⟩
  | _ => cases h

/-- The write protocol writes no cell of the keypad, -/
theorem writeByte_writesCell (rs : Bool) (b : Byte) : ∀ m ∈ writeByte rs b, m.writesCell = false := by
  simp [writeByte, Micro.writesCell]

theorem writeBus_writesCell (rs : Bool) (v : Word) : ∀ m ∈ writeBus rs v, m.writesCell = false := by
  unfold writeBus
  split
  · simp
  · exact writeByte_writesCell rs _

theorem shiftsRight_writesCell (n : Nat) : ∀ m ∈ shiftsRight n, m.writesCell = false := by
  induction n with
  | zero => simp [shiftsRight]
  | succ n ih => exact List.forall_mem_append.2 ⟨writeByte_writesCell _ _, ih⟩

theorem lcdPrintProgram_writesCell (str : List Byte) : ∀ m ∈ lcdPrintProgram str, m.writesCell = false := by
  induction str with
  | nil => simp [lcdPrintProgram]
  | cons b str ih => exact List.forall_mem_append.2 ⟨writeByte_writesCell _ _, ih⟩

/-- The cells that the commands write (R130 to R147): the slot is cleared, `KPD_SET_CHAR_LUT` installs its table, and
`KPD_INIT` ends with its flag; the LCD commands write none. -/
theorem commandProgram_writesCell {i : Instr} {m : Micro} (h : m ∈ commandProgram i) (hm : m.writesCell = true) :
    m = .clearSlot ∨ (∃ table, m = .setLut table ∧ i = .kpdSetCharLut table) ∨ m = .setKpdInit := by
  have hlcd {ms : List Micro} (hms : ∀ m ∈ ms, m.writesCell = false) : m ∉ ms :=
    fun h' => absurd hm (by simp [hms m h'])
  cases i with
  | lcdInit => exact absurd h (hlcd (by decide))
  | lcdClear | lcdHome | lcdCursorShow | lcdCursorHide => exact absurd h (hlcd (writeByte_writesCell _ _))
  | lcdCursorSet x y =>
    exact absurd h (hlcd (List.forall_mem_append.2 ⟨writeByte_writesCell _ _, shiftsRight_writesCell _⟩))
  | lcdPrint str => exact absurd h (hlcd (lcdPrintProgram_writesCell str))
  | lcdWriteInstr v | lcdWriteData v => exact absurd h (hlcd (writeBus_writesCell _ v))
  | kpdSetCharLut table => exact .inr (.inl ⟨table, List.mem_singleton.1 h, rfl⟩)
  | kpdClear => exact .inl (List.mem_singleton.1 h)
  | kpdInit | kpdGet | kpdWait | kpdGetWait | kpdGetChar | kpdGetCharWait | kpdToChar _ =>
    cases m with
    | clearSlot => exact .inl rfl
    | setKpdInit => exact .inr (.inr rfl)
    | setLut _ | record _ =>
      simp [commandProgram, kpdInitProgram, kpdGetProgram, kpdWaitProgram, kpdGetWaitProgram, kpdGetCharProgram,
        kpdGetCharWaitProgram, kpdToCharProgram] at h
    | _ => cases hm
  | _ => cases h

/-- What is said of the slot and the table alone is kept by the control position's moves and the re-evaluation. -/
theorem keptByControl_cells (P : Byte → Vector Byte 17 → Prop) : KeptByControl (fun s => P s.slot s.lut) where
  fgpos _ _ h := h
  isrpos _ _ h := h
  turnOver _ h := h
  accept _ h := h
  settle _ h := h

/-- A command leaves the table as it was, or is `KPD_SET_CHAR_LUT` and leaves its own. -/
theorem command_lut {i : Instr} (hi : i.format = .hc) (h : exec i s = .next t) :
    t.lut = s.lut ∨ ∃ table, i = .kpdSetCharLut table ∧ t.lut = table := by
  obtain ⟨checks, hr⟩ := exec_command hi h
  refine hostCommand_keeps
    (keptByControl_cells fun _ l => l = s.lut ∨ ∃ table, i = .kpdSetCharLut table ∧ l = table) ?_ (.inl rfl) hr
  intro m hm a b ha hab
  rcases micro_lut hab with hk | ⟨table, rfl, hb⟩
  · rwa [hk]
  · rcases commandProgram_writesCell hm rfl with h' | ⟨table', h', hi'⟩ | h' <;> cases h'
    exact .inr ⟨table, hi', hb⟩

/-- A command leaves the slot as it was, or empty. -/
theorem command_slot {i : Instr} (hi : i.format = .hc) (h : exec i s = .next t) : t.slot = s.slot ∨ t.slot = 0 := by
  obtain ⟨checks, hr⟩ := exec_command hi h
  refine hostCommand_keeps (keptByControl_cells fun k _ => k = s.slot ∨ k = 0) ?_ (.inl rfl) hr
  intro m hm a b ha hab
  rcases micro_slot hab with hk | ⟨-, hb⟩ | ⟨c, r, rfl, -⟩
  · rwa [hk]
  · exact .inr hb
  · rcases commandProgram_writesCell hm rfl with h' | ⟨table, h', -⟩ | h' <;> cases h'

/-- A handler leaves the table as it was. -/
theorem handler_lut {c : Col} (h : exec (isrInstr c) s = .next t) : t.lut = s.lut := by
  rw [exec_isrInstr] at h
  refine columnHandler_keeps (keptByControl_cells fun _ l => l = s.lut) ?_ rfl h
  intro m hm a b ha hab
  rcases micro_lut hab with hk | ⟨table, rfl, -⟩
  · rwa [hk]
  · simp [scanProgram] at hm

/-- A handler leaves the slot as it was, or a key of its own column. -/
theorem handler_slot {c : Col} (h : exec (isrInstr c) s = .next t) :
    t.slot = s.slot ∨ ∃ r : Row, t.slot = keyCode r c := by
  rw [exec_isrInstr] at h
  refine columnHandler_keeps (keptByControl_cells fun k _ => k = s.slot ∨ ∃ r : Row, k = keyCode r c) ?_ (.inl rfl) h
  intro m hm a b ha hab
  rcases micro_slot hab with hk | ⟨rfl, -⟩ | ⟨d, r, rfl, hb⟩
  · rwa [hk]
  · simp [scanProgram] at hm
  · have hd : d = c := by simpa [scanProgram] using hm
    exact .inr ⟨r, hd ▸ hb⟩

/-- Settles O59: commands, handlers and bus words, each by what its micro-steps write. -/
theorem cellsHaveTheirWriters : Obligations.CellsHaveTheirWriters := by
  unfold Obligations.CellsHaveTheirWriters
  refine ⟨fun s t i h => ?_, fun s t i hi h => ?_, fun s t c h => handler_slot h⟩
  · cases hf : i.format with
    | hc => exact command_lut hf h
    | irq =>
      obtain ⟨c, rfl⟩ := isrInstr_of_format hf
      exact .inl (handler_lut h)
    | lb => exact .inl (deviceExec_cells (exec_bus hf s ▸ h)).lut
  · cases hf : i.format with
    | hc => exact command_slot hf h
    | irq => exact absurd hf hi
    | lb => exact .inl (deviceExec_cells (exec_bus hf s ▸ h)).slot

/-! ### Reset (R58) -/

theorem lcdMode_reset (c : Config) : lcdMode (State.resetWith c) = 0 := by
  cases h : c.lcdShares <;> simp [lcdMode, State.resetWith, portRole, h, Regs.get, Regs.reset]

theorem lcdOut_reset (c : Config) : lcdOut (State.resetWith c) = 0 := by
  cases h : c.lcdShares <;> simp [lcdOut, State.resetWith, portRole, h, Regs.get, Regs.reset]

/-- Every mode field of the LCD's lines is INPUT, -/
theorem lcdField_reset (c : Config) (p : PortPin) : pinField (lcdMode (State.resetWith c)) p.val = modeInput := by
  simp [lcdMode_reset, pinField, modeInput]

/-- and none of them is driven, with a field or without one. -/
theorem lcdDrives_reset (c : Config) (p : PortPin) : lcdDrives (State.resetWith c) p = false := by
  rw [lcdDrives, lcdField_reset]
  split <;> rfl

theorem atReset_resetWith (c : Config) : AtReset c (State.resetWith c) where
  cfg := rfl
  lut := rfl
  clken := by simp [State.resetWith, Regs.reset]
  mode := by simp [State.resetWith, Regs.reset]
  pull := by simp [State.resetWith, Regs.reset]
  odr := by simp [State.resetWith, Regs.reset]
  mux h l := routed_unrouted h.2.1 l
  imr := by simp [State.resetWith, Regs.reset]
  rtsr := by simp [State.resetWith, Regs.reset]
  pr := by simp [State.resetWith, Regs.reset]
  irqen l := by simp [State.resetWith, Regs.reset, irqOn]
  lmode p _ := ⟨lcdField_reset c p, lcdDrives_reset c p⟩
  lodr p _ := by simp [lcdOut_reset]
  fgpos := rfl
  isrpos := rfl
  kpdInit := rfl
  lcdInit := rfl
  refused := rfl
  faults := rfl
  devBusy := rfl

/-- Settles O10: the table row by row, and the character table's own entry 0. -/
theorem resetState : Obligations.ResetState := by
  unfold Obligations.ResetState
  exact fun c => ⟨atReset_resetWith c, rfl⟩

/-! ### The invariants at reset, and the board of log 2 (R10, R85, R300) -/

theorem undeliveredBeforeInit_reset (c : Config) : UndeliveredBeforeInit (State.resetWith c) :=
  ⟨by simp [State.resetWith], .inr (.inr (.inr (atReset_resetWith c).irqen))⟩

theorem scanMasksTheLines_reset (c : Config) : ScanMasksTheLines (State.resetWith c) :=
  fun p hp => absurd hp (by simp [State.resetWith])

/-- The positions that stand in for overlapping ones do not overlap, and keep log 7's places. -/
theorem layout_apart_wired (shares : Bool) : (Layout.apart shares).Wired ∧ (Layout.apart shares).Placed shares := by
  cases shares <;> decide

/-- Whichever of the two the board's positions are, they do not overlap. -/
theorem board_wired : Config.board.Wired := by
  refine ⟨by decide, ?_⟩
  change (if _ then _ else _ : Layout).Wired ∧ (if _ then _ else _ : Layout).Placed Config.boardShares
  split
  · assumption
  · exact layout_apart_wired _

/-- Settles O58: the invariants at `State.resetWith`, and the board's parameters and positions. -/
theorem invariantsHoldAtReset : Obligations.InvariantsHoldAtReset := by
  unfold Obligations.InvariantsHoldAtReset
  refine ⟨fun c => ⟨wf_nil, ?_, ?_, undeliveredBeforeInit_reset c, scanMasksTheLines_reset c⟩, rfl, board_wired⟩
  · simp [SlotLegal, State.resetWith]
  · simp [OnlyWrites, State.resetWith]

/-! ### The environment (R57, R163, R304, R34) -/

/-- A key step is its key's, and no other's. -/
theorem keyClosed_setKey (keys : BitVec 16) (r r' : Row) (c c' : Col) (closed : Bool) :
    keyClosed (setKey keys r c closed) r' c' = if r' = r ∧ c' = c then closed else keyClosed keys r' c' := by
  have hlt : 4 * r'.val + c'.val < 16 := by omega
  have hk : 4 * r'.val + c'.val = 4 * r.val + c.val ↔ r' = r ∧ c' = c := by
    rw [Fin.ext_iff, Fin.ext_iff]
    omega
  simp only [keyClosed, setKey, BitVec.getLsbD_or, BitVec.getLsbD_and, BitVec.getLsbD_not, maskBit_getLsbD, hk, hlt]
  by_cases h : r' = r ∧ c' = c
  · simp [h]
  · simp [h]

/-- While a contact bounces an input pin's level is a draw (R57). -/
theorem level_bouncing (h : s.bouncing = true) {l : Line}
    (hl : pinField s.regs.mode (pinOf s.cfg l).val = modeInput) :
    level s l = Config.freeBit s.draws (pinOf s.cfg l).val := by
  have hne : modeInput ≠ modeOutput := by decide
  simp [level, h, hl, hne]

theorem powerLcd_first (h : s.lcdPowered = false) :
    powerLcd s = { s with lcdPowered := true, devBusy := if s.anyLatch then s.devBusy else .free } := by
  simp [powerLcd, h]

/-- A second `LcdPowered` does nothing (log 20). -/
theorem powerLcd_again (h : s.lcdPowered = true) : powerLcd s = s := by
  simp [powerLcd, h]

/-- Settles O12: each environment step by its definition, the keys and the levels by their lemmas. -/
theorem environmentSteps : Obligations.EnvironmentSteps := by
  unfold Obligations.EnvironmentSteps
  intro s
  refine ⟨fun r c closed => ⟨rfl, fun r' c' => keyClosed_setKey s.keys r r' c c' closed⟩, fun b => rfl,
    fun h l hl => level_bouncing h hl, fun h => ?_, fun h => ?_, fun h => ?_, fun h => ?_⟩
  · rw [envStep, powerLcd_first h]
  · rw [envStep, powerLcd_again h]
  · simp [envStep, h]
  · simp [envStep, h]

/-! ### Gated accesses and the shared port (R36, R37, R48, R314) -/

theorem regRead_clocked {r : Role} (h : clocked s r = true) : regRead r s = .ok (roleValue s r) := by
  simp [regRead, h]

theorem regWrite_clocked {r : Role} (h : clocked s r = true) (hr : r ≠ .idr) (v : Word) :
    regWrite r v s = .next { s with regs := storeRole s.cfg.lcdShares r v s.regs } := by
  simp [regWrite, h, hr]

/-- An access to a gated register faults, whether it is a read or a write. -/
theorem gated_faults {r : Role} (h : clocked s r = false) (v : Word) :
    regRead r s = .error (.clockGated r s.pos (s.marked [.clockGated r s.pos])) ∧
      regWrite r v s = .fault (.clockGated r s.pos (s.marked [.clockGated r s.pos])) := by
  simp [regRead, regWrite, h]

theorem clkLcdBit_shared {c : Config} (h : c.lcdShares = true) : clkLcdBit c = c.layout.clkKpdPort := by
  simp [clkLcdBit, h]

/-- In a shared port the two pairs of roles are gated by the keypad's clock and name the same two words. -/
theorem sharedPort_accesses (h : s.cfg.lcdShares = true)
    (hc : s.regs.clken.getLsbD s.cfg.layout.clkKpdPort.val = true) :
    regRead .mode s = .ok s.regs.mode ∧ regRead .lmode s = .ok s.regs.mode ∧
    regRead .odr s = .ok s.regs.odr ∧ regRead .lodr s = .ok s.regs.odr ∧
    ∀ v, regWrite .mode v s = .next { s with regs := { s.regs with mode := v } } ∧
      regWrite .lmode v s = .next { s with regs := { s.regs with mode := v } } ∧
      regWrite .odr v s = .next { s with regs := { s.regs with odr := v } } ∧
      regWrite .lodr v s = .next { s with regs := { s.regs with odr := v } } := by
  simp [regRead, regWrite, clocked, clkLcdBit_shared h, hc, roleValue, storeRole, portRole, h, Regs.get, Regs.set]

/-- The LCD's lines in a shared port stand on none of the keypad's eight pins (R48, R314). -/
theorem lcdPin_ne_pinOf {c : Config} (hw : c.Wired) (h : c.lcdShares = true) {p : PortPin} (hp : p ∈ c.layout.lcdPins)
    (l : Line) : p.val ≠ (pinOf c l).val := by
  have h8 := hw.2.2 p hp
  have hl := (pinOf c l).isLt
  rw [h, if_pos rfl] at h8
  omega

/-- I2 keeps `MODE[15:0]` of a shared port (R314). -/
theorem lcdOutput_low {c : Config} (hw : c.Wired) (h : c.lcdShares = true) (w : Word) :
    (Upd.lcdOutput.apply c w).extractLsb' 0 16 = w.extractLsb' 0 16 := by
  apply BitVec.eq_of_getLsbD_eq
  intro j hj
  have hbit : (lcdLinesOut c.layout w).getLsbD j = w.getLsbD j := by
    apply lcdLinesOut_getLsbD
    intro p hp
    have h8 := hw.2.2 p hp
    rw [h, if_pos rfl] at h8
    omega
  simp only [BitVec.getLsbD_extractLsb', Nat.zero_add, Upd.apply, hbit]

/-- I2's write stores the eleven lines' fields in the LCD's mode register, -/
theorem lcdMode_after_output {x : Ctx} (h : micro x (.write .lmode .lcdOutput) s = .next t) :
    lcdMode t = lcdLinesOut s.cfg.layout (localT x s) := by
  have hr : portRole s.cfg.lcdShares .lmode ≠ .idr := by cases s.cfg.lcdShares <;> decide
  rw [micro] at h
  rw [regUpdate_next h]
  exact Regs.get_set _ hr _

/-- and after it every line is an output, those without a field by `highOut` (R48; log 7). -/
theorem lcdDrives_after_output {x : Ctx} (h : micro x (.write .lmode .lcdOutput) s = .next t) {p : PortPin}
    (hp : p ∈ t.cfg.layout.lcdPins) : lcdDrives t p = true := by
  rw [micro_cfg h] at hp
  rw [lcdDrives, lcdMode_after_output h]
  split
  · rw [lcdLinesOut_output hp ‹_›]
    rfl
  · rw [micro] at h
    rw [regUpdate_next h]
    simp

/-- Settles O14: the gating by the definition of `clocked`, then one lemma for each of the other clauses. -/
theorem gatedAccessFaults : Obligations.GatedAccessFaults := by
  unfold Obligations.GatedAccessFaults
  intro s
  refine ⟨?_, rfl, ?_, ?_, fun r v h => gated_faults h v, fun h hc => ?_, fun hw h => ⟨?_, fun w => ?_⟩, ?_⟩
  · simp [clocked]
  · cases h : s.cfg.lcdShares <;> simp [clocked, clkLcdBit, h]
  · simp [clocked]
  · obtain ⟨hm, hlm, ho, hlo, hw⟩ := sharedPort_accesses h hc
    refine ⟨hm, hlm.trans hm.symm, ho, hlo.trans ho.symm, fun v => ?_⟩
    obtain ⟨wm, wlm, wo, wlo⟩ := hw v
    exact ⟨wm, wlm.trans wm.symm, wo, wlo.trans wo.symm⟩
  · exact fun p hp l => lcdPin_ne_pinOf hw h hp l
  · exact ⟨setLow16_high _ _, setLow16_high _ _, lcdOutput_low hw h w⟩
  · exact fun x t h p hp => lcdDrives_after_output h hp

/-! ### Programs that nothing stops -/

/-- The micro-steps of a program all answer a next state wherever `P` holds, and keep it. -/
abbrev Proceeds (P : State → Prop) (x : Ctx) (ms : List Micro) : Prop :=
  ∀ m ∈ ms, ∀ s, P s → ∃ t, micro x m s = .next t ∧ P t

/-- A bounded turn that is used up leaves the foreground where it stands. -/
theorem runFg_spent {P : State → Prop} (h : KeptByControl P) (i : Instr) (k : Nat) (ms : List Micro) (hs : P s) :
    ∃ t, runFg i k ms (some 0) s = .next t ∧ P t := by
  cases ms with
  | nil => exact ⟨_, runFg_done .., h.fgpos _ _ hs⟩
  | cons m rest => exact ⟨_, runFg_wait rfl, h.fgpos _ _ hs⟩

/-- A bounded turn of the foreground ends before the micro-step at hand, or after it goes on with one less. -/
theorem runFg_bounded_cons {P : State → Prop} (h : KeptByControl P) {i : Instr} {k n : Nat} {m : Micro}
    {rest : List Micro} (hs : P s) (hm : micro .fg m { s with fgpos := .inOp i k } = .next u) (hp : m ≠ .pollSlot)
    (hrest : ∀ j, n = j + 1 → ∃ t, runFg i (k + 1) rest (some j) u.settle = .next t ∧ P t) :
    ∃ t, runFg i k (m :: rest) (some n) s = .next t ∧ P t := by
  cases n with
  | zero => exact runFg_spent h i k _ hs
  | succ j =>
    rw [runFg_cons (mayRun_bounded j s) hm (by simp [pollAgain, hp])]
    exact hrest j rfl

/-- A bounded turn of the foreground that ends within a program which proceeds and does not poll. -/
theorem runFg_proceeds {P : State → Prop} (h : KeptByControl P) {i : Instr} {k n : Nat} {ms after : List Micro}
    (hm : Proceeds P .fg ms) (hp : .pollSlot ∉ ms) (hn : n ≤ ms.length) (hs : P s) :
    ∃ t, runFg i k (ms ++ after) (some n) s = .next t ∧ P t := by
  induction ms generalizing k n s with
  | nil =>
    obtain rfl : n = 0 := by simpa using hn
    exact runFg_spent h i k _ hs
  | cons m rest ih =>
    obtain ⟨hm1, hrest⟩ := List.forall_mem_cons.1 hm
    obtain ⟨hp1, hprest⟩ := List.ne_and_not_mem_of_not_mem_cons hp
    obtain ⟨u, hu, hPu⟩ := hm1 _ (h.fgpos _ (.inOp i k) hs)
    refine runFg_bounded_cons h hs hu hp1.symm fun j hj => ih hrest hprest ?_ (h.settle _ hPu)
    rw [List.length_cons] at hn
    omega

/-- A record, which is a micro-step only where the sample has a row (R151). -/
def Micro.isRecord : Micro → Bool
  | .record _ => true
  | _ => false

theorem isRecord_of_skipsRecord {m : Micro} (h : skipsRecord m s = true) : m.isRecord = true := by
  unfold skipsRecord at h
  split at h
  · rfl
  · cases h

/-- A handler whose turn is used up stands where it is. -/
theorem runIsr_spent {c : Col} {k : Nat} {m : Micro} {ms : List Micro} (h : skipsRecord m s = false) :
    runIsr c k (m :: ms) (some 0) s = .next { s with isrpos := some { col := c, k := k } } := by
  simp [runIsr, h]

/-- A turn that was not used up had one micro-step more. -/
theorem eq_some_of_spend {q : Option Nat} {n : Nat} (hq : q ≠ some 0) (h : spend q = some n) : q = some (n + 1) := by
  cases q with
  | none => cases h
  | some m =>
    cases h
    have : m ≠ 0 := fun h' => hq (by rw [h'])
    simp only [Option.some.injEq]
    omega

/-- A handler's program that proceeds: a turn longer than it, or unbounded, ends in the return; a bounded one of no more
micro-steps than it has for certain ends in the handler, at least as many positions on. -/
theorem runIsr_proceeds {P : State → Prop} (h : KeptByControl P) {c : Col} {k : Nat} {ms : List Micro}
    {q : Option Nat} (hm : Proceeds P .isr ms) (hs : P s) :
    ∃ t, runIsr c k ms q s = .next t ∧ P t ∧
      ((∀ n, q = some n → ms.length < n) → t.isrpos = none) ∧
      ∀ n, q = some n → n ≤ ms.countP (fun m => !m.isRecord) →
        ∃ j, t.isrpos = some { col := c, k := j } ∧ k + n ≤ j := by
  induction ms generalizing k q s with
  | nil =>
    by_cases hq : q = some 0
    · subst hq
      refine ⟨_, rfl, h.isrpos _ _ hs, fun h0 => absurd (h0 0 rfl) (Nat.not_lt_zero _), fun n hn _ => ?_⟩
      cases hn
      exact ⟨k, rfl, le_rfl⟩
    · refine ⟨_, runIsr_done hq, h.isrpos _ none hs, fun _ => rfl, fun n hn hle => absurd hn ?_⟩
      obtain rfl : n = 0 := by simpa using hle
      exact hq
  | cons m rest ih =>
    obtain ⟨hm1, hrest⟩ := List.forall_mem_cons.1 hm
    by_cases hskip : skipsRecord m s = true
    · obtain ⟨t, hr, hP, hret, hpos⟩ := ih (k := k + 1) (q := q) hrest hs
      have hrun : runIsr c k (m :: rest) q s = runIsr c (k + 1) rest q s := by simp [runIsr, hskip]
      refine ⟨t, hrun.trans hr, hP, fun h0 => hret fun n hn => Nat.lt_of_succ_lt (h0 n hn), fun n hn hle => ?_⟩
      rw [List.countP_cons_of_neg (by simp [isRecord_of_skipsRecord hskip])] at hle
      obtain ⟨j, hj, hkj⟩ := hpos n hn hle
      exact ⟨j, hj, by omega⟩
    · rw [Bool.not_eq_true] at hskip
      by_cases hq : q = some 0
      · subst hq
        refine ⟨_, runIsr_spent hskip, h.isrpos _ _ hs, fun h0 => absurd (h0 0 rfl) (Nat.not_lt_zero _),
          fun n hn _ => ?_⟩
        cases hn
        exact ⟨k, rfl, le_rfl⟩
      · obtain ⟨u, hu, hPu⟩ := hm1 _ (h.isrpos _ (some { col := c, k := k }) hs)
        obtain ⟨t, hr, hP, hret, hpos⟩ := ih (k := k + 1) (q := spend q) hrest (h.settle _ hPu)
        refine ⟨t, (runIsr_cons hskip hq hu).trans hr, hP, fun h0 => hret fun n hn => ?_, fun n hn hle => ?_⟩
        · exact Nat.lt_of_succ_lt_succ (h0 (n + 1) (eq_some_of_spend hq hn))
        · subst hn
          have hn0 : n ≠ 0 := fun h' => hq (by rw [h'])
          rw [List.countP_cons] at hle
          obtain ⟨j, hj, hkj⟩ := hpos (n - 1) rfl (by split at hle <;> omega)
          exact ⟨j, hj, by omega⟩

/-! ### What the keypad's programs need (R37) -/

/-- A micro-step that nothing stops while the clocks of the roles `rs` run, and that leaves the clocks and `kpd_init`. -/
abbrev Micro.RunsOn (rs : List Role) (m : Micro) : Prop :=
  m ≠ .setKpdInit ∧ ∀ r ∈ m.role, r ∈ rs ∧ r ≠ .lodr ∧ (m.isWrite = true → r ≠ .idr ∧ r ≠ .clken)

/-- The clocks of the roles `rs` run, and `kpd_init` is `b`. -/
abbrev ClocksRun (rs : List Role) (b : Bool) (s : State) : Prop := (∀ r ∈ rs, clocked s r = true) ∧ s.kpdInit = b

/-- K10 alone writes `kpd_init` (R51). -/
theorem micro_kpdInit {x : Ctx} {m : Micro} (h : micro x m s = .next t) (hm : m ≠ .setKpdInit) :
    t.kpdInit = s.kpdInit := by
  by_cases hc : m.writesCell = false
  · exact (micro_cells h hc).kpdInit
  · cases m with
    | setKpdInit => exact absurd rfl hm
    | record c => cases h; unfold recordKey; split <;> rfl
    | clearSlot | setLut _ => cases h; rfl
    | _ => exact absurd rfl hc

/-- A micro-step stops only at a clock that does not run, at a write of `IDR`, or at the LCD. -/
theorem micro_goes_on (x : Ctx) {m : Micro}
    (h : ∀ r ∈ m.role, clocked s r = true ∧ r ≠ .lodr ∧ (m.isWrite = true → r ≠ .idr)) :
    ∃ t, micro x m s = .next t := by
  cases m with
  | read r => exact ⟨_, by rw [micro, microRead, regRead_clocked (h r rfl).1]⟩
  | write r upd =>
    obtain ⟨hc, -, hr⟩ := h r rfl
    exact ⟨_, by rw [micro, regUpdate, regWrite_clocked hc (hr rfl)]⟩
  | sample => exact ⟨_, by rw [micro, sampleRows, regRead_clocked (h _ rfl).1]⟩
  | ack c => exact ⟨_, regWrite_pr _ s⟩
  | busE _ | busRs _ | busRw _ | busD _ => exact absurd rfl (h _ rfl).2.1
  | clearSlot | readSlot | returnSlot | pollSlot | returnCharOfV | returnCharOf _ | setLut _ | setKpdInit | setLcdInit
  | settleDelay _ _ | debounce | lookup | record _ => exact ⟨_, rfl⟩

theorem proceeds_of_runsOn {rs : List Role} {b : Bool} (x : Ctx) {ms : List Micro} (h : ∀ m ∈ ms, m.RunsOn rs) :
    Proceeds (ClocksRun rs b) x ms := by
  intro m hm s ⟨hclk, hinit⟩
  obtain ⟨hk, hrole⟩ := h m hm
  obtain ⟨t, ht⟩ := micro_goes_on (s := s) x fun r hr =>
    have ⟨hmem, hl, hw⟩ := hrole r hr
    ⟨hclk r hmem, hl, fun h' => (hw h').1⟩
  have hkept := micro_clocked ht fun hw hr => ((hrole _ hr).2.2 hw).2 rfl
  exact ⟨t, ht, fun r hr => (hkept r).trans (hclk r hr), (micro_kpdInit ht hk).trans hinit⟩

theorem keptByControl_clocksRun (rs : List Role) (b : Bool) : KeptByControl (ClocksRun rs b) where
  fgpos _ _ h := h
  isrpos _ _ h := h
  turnOver _ h := h
  accept _ h := h
  settle _ h := h

theorem keptByControl_kpdInit (b : Bool) : KeptByControl (fun s => s.kpdInit = b) where
  fgpos _ _ h := h
  isrpos _ _ h := h
  turnOver _ h := h
  accept _ h := h
  settle _ h := h

/-- The roles that a scan accesses (R150). -/
def scanRoles : List Role := [.imr, .mode, .idr, .pr]

/-- The roles that `KPD_INIT` accesses from K2 on (R130). -/
def armingRoles : List Role := [.mode, .pull, .odr, .mux, .rtsr, .imr, .irqen]

theorem scanProgram_runsOn (c : Col) : ∀ m ∈ scanProgram c, m.RunsOn scanRoles := by
  revert c
  decide

/-- With the port's clock on a scan has every clock that it needs. -/
theorem clocksRun_scan (h : clocked s .mode = true) : ClocksRun scanRoles s.kpdInit s := by
  simpa [ClocksRun, scanRoles, clocked] using h

/-- K2 to K9. -/
def armingProgram : List Micro := (kpdInitProgram.drop 2).dropLast

theorem kpdInitProgram_eq :
    kpdInitProgram = .read .clken :: .write .clken .clkKeypad :: (armingProgram ++ [.setKpdInit]) := rfl

theorem armingProgram_runsOn : ∀ m ∈ armingProgram, m.RunsOn armingRoles := by decide

/-- K1 starts every clock that the rest of `KPD_INIT` needs. -/
theorem clocksRun_arming {x : Ctx} {b : Bool} (h : micro x (.write .clken .clkKeypad) s = .next t)
    (hs : s.kpdInit = b) : ClocksRun armingRoles b t := by
  refine ⟨?_, (micro_kpdInit h (by simp)).trans hs⟩
  rw [micro] at h
  rw [regUpdate_next h]
  simp [armingRoles, clocked, storeRole, portRole, Regs.set, Upd.apply, maskBit_getLsbD]

/-! ### The keypad's phase (R50, R167) -/

theorem phase_uninit (h : s.kpdInit = false) : phase s = .uninit := by simp [phase, h]

theorem phase_idle (h : s.kpdInit = true) (hp : s.isrpos = none) : phase s = .idleArmed := by simp [phase, h, hp]

/-- In S1 a handler has not masked the lines yet (log 12). -/
theorem phase_entered {c : Col} {k : Nat} (h : s.kpdInit = true) (hp : s.isrpos = some { col := c, k := k })
    (hk : k < 3) : phase s = .idleArmed := by
  simp [phase, h, hp, Nat.not_le.2 hk]

theorem phase_scanning {c : Col} {k : Nat} (h : s.kpdInit = true) (hp : s.isrpos = some { col := c, k := k })
    (hk : 3 ≤ k) : phase s = .scanning c := by
  simp [phase, h, hp, hk]

/-- A part of `KPD_INIT`'s first 17 micro-steps leaves `kpd_init` false, and nothing stops it: K1 needs no clock, and
what follows it needs K1's. -/
theorem kpdInit_partial {n : Nat} (hs : s.kpdInit = false) (hn : n < 18) :
    ∃ t, runFg .kpdInit 1 kpdInitProgram (some n) s = .next t ∧ t.kpdInit = false := by
  have hcontrol := keptByControl_kpdInit false
  rw [kpdInitProgram_eq]
  refine runFg_bounded_cons hcontrol hs rfl (by simp) fun j hj => ?_
  obtain ⟨u, hu⟩ : ∃ u, micro .fg (.write .clken .clkKeypad)
      { (setLocalT .fg s.regs.clken { s with fgpos := .inOp .kpdInit 1 }).settle with fgpos := .inOp .kpdInit 2 }
        = .next u := micro_goes_on .fg (by simp [Micro.role, Micro.isWrite, clocked])
  have hclk : ClocksRun armingRoles false u := clocksRun_arming hu hs
  refine runFg_bounded_cons hcontrol hs hu (by simp) fun l hl => ?_
  obtain ⟨t, ht, hP⟩ := runFg_proceeds (keptByControl_clocksRun armingRoles false) (i := .kpdInit) (k := 3)
    (after := [.setKpdInit]) (proceeds_of_runsOn .fg armingProgram_runsOn) (by decide)
    (show l ≤ armingProgram.length by rw [show armingProgram.length = 15 from rfl]; omega)
    ((keptByControl_clocksRun armingRoles false).settle _ hclk)
  exact ⟨t, ht, hP.2⟩

/-- The 18th micro-step of `KPD_INIT` sets the flag and ends the command. -/
theorem kpdInit_last {n : Nat} (q : n ≠ 0) (s : State) :
    ∃ t, runFg .kpdInit 18 (kpdInitProgram.drop 17) (some n) s = .next t ∧ t.kpdInit = true ∧
      t.isrpos = s.isrpos := by
  have hdrop : kpdInitProgram.drop 17 = [.setKpdInit] := rfl
  have hq : mayRun (some n) s = true := by simpa [mayRun] using q
  rw [hdrop, runFg_cons hq rfl rfl, runFg_done]
  exact ⟨_, rfl, rfl, rfl⟩

/-- In its first two micro-steps, those of S1, an entered handler stands where it has counted to. -/
theorem scan_in_S1 {c : Col} {n : Nat} (hn : n < 2) (hr : runIsr c 1 (scanProgram c) (some n) s = .next t) :
    t.isrpos = some { col := c, k := n + 1 } := by
  rw [scanProgram] at hr
  match n with
  | 0 =>
    rw [runIsr_spent rfl] at hr
    cases hr
    rfl
  | 1 =>
    rw [runIsr_cons rfl (by simp) rfl, spend, runIsr_spent rfl] at hr
    cases hr
    rfl

/-- A handler of an initialized keypad with the port's clock on: whichever part of its scan is to come, nothing stops
it, and where its turn ends. -/
theorem scan_proceeds {c : Col} {k j : Nat} {q : Option Nat} (hk : s.kpdInit = true) (hc : clocked s .mode = true) :
    ∃ t, runIsr c k ((scanProgram c).drop j) q s = .next t ∧ t.kpdInit = true ∧
      ((∀ n, q = some n → 14 ≤ n) → t.isrpos = none) ∧
      ∀ n, q = some n → n ≤ ((scanProgram c).drop j).countP (fun m => !m.isRecord) →
        ∃ l, t.isrpos = some { col := c, k := l } ∧ k + n ≤ l := by
  obtain ⟨t, hr, hP, hret, hpos⟩ := runIsr_proceeds (keptByControl_clocksRun scanRoles true) (c := c) (k := k) (q := q)
    (fun m hm => proceeds_of_runsOn .isr (scanProgram_runsOn c) m (List.mem_of_mem_drop hm)) (hk ▸ clocksRun_scan hc)
  refine ⟨t, hr, hP.2, fun h => hret fun n hn => ?_, hpos⟩
  have h14 := h n hn
  have hlen : (scanProgram c).length = 13 := rfl
  rw [List.length_drop, hlen]
  omega

/-- A scan has twelve micro-steps for certain (R331). -/
theorem countP_scanProgram (c : Col) : (scanProgram c).countP (fun m => !m.isRecord) = 12 := rfl

/-- An entered handler's bounded turn, by how long it is. -/
theorem phase_of_entered {c : Col} {n : Nat} (hk : s.kpdInit = true) (hi : s.isrpos = none) (hr : req s c = true)
    (hc : clocked s .mode = true) (hq : s.quantum = some n) :
    ∃ t, exec (isrInstr c) s = .next t ∧ (n < 2 → phase t = .idleArmed) ∧
      (2 ≤ n → n ≤ 12 → phase t = .scanning c) ∧ (14 ≤ n → phase t = .idleArmed) := by
  obtain ⟨t, ht, htk, hret, hpos⟩ := scan_proceeds (s := enterHandler c s.turnOver) (c := c) (k := 1) (j := 0)
    (q := some n) hk hc
  rw [List.drop_zero] at ht hpos
  refine ⟨t, ?_, fun h => ?_, fun h h' => ?_, fun h => ?_⟩
  · rw [exec_isrInstr, columnHandler_entered hi hr, hq]
    exact ht
  · exact phase_entered htk (scan_in_S1 h ht) (by omega)
  · obtain ⟨l, hl, hle⟩ := hpos n rfl (by rw [countP_scanProgram]; exact h')
    exact phase_scanning htk hl (by omega)
  · exact phase_idle htk (hret fun m hm => by cases hm; exact h)

/-- A handler that stands within its scan ends it in `IdleArmed`. -/
theorem phase_of_resumed {c : Col} {k : Nat} (hk : s.kpdInit = true) (hi : s.isrpos = some { col := c, k := k })
    (hc : clocked s .mode = true) (hq : ScanRuns s) : ∃ t, exec (isrInstr c) s = .next t ∧ phase t = .idleArmed := by
  obtain ⟨t, ht, htk, hret, -⟩ := scan_proceeds (s := s.turnOver) (c := c) (k := k) (j := k - 1) (q := s.quantum) hk hc
  refine ⟨t, ?_, phase_idle htk (hret fun n hn => ?_)⟩
  · rw [exec_isrInstr, columnHandler_resumed hi]
    exact ht
  · rcases hq with hq | ⟨m, hq, hm⟩ <;> rw [hq] at hn <;> cases hn
    exact hm

/-- Settles O28: `Uninit` by `kpdInit_partial` and `kpdInit_last`, the scan by where its turn ends. -/
theorem phaseFollowsTheScan : Obligations.PhaseFollowsTheScan := by
  unfold Obligations.PhaseFollowsTheScan
  refine ⟨fun s h => phase_uninit h, ?_, ?_, ?_, ?_⟩
  · intro s n hidle hk hq hn
    obtain ⟨t, ht, htk⟩ := kpdInit_partial (s := { s.turnOver with result := none }) hk hn
    refine ⟨t, ?_, phase_uninit htk⟩
    rw [exec, execKpdInit, hostCommand_accepted hidle rfl, hq, ht]
  · intro s hat hk ⟨m, hq, hm⟩
    obtain ⟨t, ht, htk, hti⟩ := kpdInit_last (n := m) (by omega) s.turnOver
    refine ⟨t, ?_, phase_idle htk (hti.trans hat.1)⟩
    rw [exec, execKpdInit, hostCommand_resumed hat, hq, ht]
  · intro s c n hk hi hr hc hq
    exact ⟨phase_idle hk hi, phase_of_entered hk hi hr hc hq⟩
  · intro s c k hk hi h3 hc hq
    exact ⟨phase_scanning hk hi h3, phase_of_resumed hk hi hc hq⟩

end Sys2Proof.Machine
end

section
/-! PROOFS. The statements of 30_encoding: the decoder and the encoder agree, what is reserved is refused, and a step
runs what the command port's bytes decode to. -/

namespace Sys2Proof

variable {bs rest : List Byte} {i : Instr}

/-! ### Operands (R108, R112) -/

/-- A word's four bytes assemble to it, -/
theorem word32_bytes (w : Word) :
    word32 (w.extractLsb' 0 8) (w.extractLsb' 8 8) (w.extractLsb' 16 8) (w.extractLsb' 24 8) = w := by
  simp only [word32, BitVec.extractLsb'_append_extractLsb'_eq_extractLsb']
  exact BitVec.extractLsb'_eq_self

/-- and they are the ones it was assembled from. -/
theorem bytes32_word32 (b0 b1 b2 b3 : Byte) : bytes32 (word32 b0 b1 b2 b3) = [b0, b1, b2, b3] := by
  simp only [bytes32, word32, List.cons.injEq, and_true]
  refine ⟨?_, ?_, ?_, ?_⟩
  all_goals
    apply BitVec.eq_of_getLsbD_eq
    intro j hj
    simp only [BitVec.getLsbD_extractLsb', BitVec.getLsbD_append]
    grind

/-- A word operand is read from exactly its four bytes. -/
theorem decodeWordOperand_eq_ok {f : Word → Instr} :
    decodeWordOperand f bs = .ok (i, rest) ↔ ∃ w, i = f w ∧ bs = bytes32 w ++ rest := by
  constructor
  · intro h
    unfold decodeWordOperand at h
    split at h <;> cases h
    exact ⟨_, rfl, by rw [bytes32_word32]; rfl⟩
  · rintro ⟨w, rfl, rfl⟩
    exact congrArg (fun v => Except.ok (f v, rest)) (word32_bytes w)

/-- The cursor's operands are read from exactly two bytes. -/
theorem decodeCursorOperands_eq_ok :
    decodeCursorOperands bs = .ok (i, rest) ↔ ∃ x y, i = .lcdCursorSet x y ∧ bs = x :: y :: rest := by
  constructor
  · intro h
    unfold decodeCursorOperands at h
    split at h <;> cases h
    exact ⟨_, _, rfl, rfl⟩
  · rintro ⟨x, y, rfl, rfl⟩
    rfl

/-- A table has the first 17 bytes as its entries. -/
theorem toList_tableOf (h : 17 ≤ bs.length) : (tableOf bs).toList = bs.take 17 := by
  have hmap : (tableOf bs).toList = (List.range 17).map (bs.getD · 0) := rfl
  apply List.ext_getElem
  · simp [h]
  · intro j _ _
    simp only [hmap, List.getElem_map, List.getElem_range, List.getElem_take]
    exact List.getD_eq_getElem bs 0 _

/-- A table operand is read from exactly its 17 bytes. -/
theorem decodeTableOperand_eq_ok :
    decodeTableOperand bs = .ok (i, rest) ↔ ∃ table, i = .kpdSetCharLut table ∧ bs = table.toList ++ rest := by
  constructor
  · intro h
    unfold decodeTableOperand at h
    split at h <;> cases h
    exact ⟨_, rfl, by rw [toList_tableOf (by omega), List.take_append_drop]⟩
  · rintro ⟨table, rfl, rfl⟩
    have hlen : table.toList.length = 17 := table.length_toList
    have htable : tableOf (table.toList ++ rest) = table := by
      rw [← Vector.toList_inj, toList_tableOf (by simp), List.take_left' hlen]
    rw [decodeTableOperand, if_neg (by simp), htable, List.drop_left' hlen]

theorem noNul_cons (b : Byte) (s : List Byte) : noNul (b :: s) = true ↔ b ≠ 0 ∧ noNul s = true := by simp [noNul]

/-- A byte that is not `0x00` is the string's next. -/
theorem splitString_cons {b : Byte} (hb : b ≠ 0) (bs : List Byte) :
    splitString (b :: bs) = (splitString bs).map fun p => (b :: p.1, p.2) := by
  rw [splitString, if_neg hb]
  cases splitString bs <;> rfl

/-- What is split off is a string without `0x00`, and the `0x00` after it. -/
theorem splitString_eq_some {s : List Byte} :
    splitString bs = some (s, rest) ↔ noNul s = true ∧ bs = s ++ 0 :: rest := by
  induction bs generalizing s with
  | nil => simp [splitString]
  | cons b bs ih =>
    by_cases hb : b = 0
    · subst hb
      cases s with
      | nil => simp [splitString, noNul]
      | cons c s => grind [splitString, noNul_cons]
    · rw [splitString_cons hb, Option.map_eq_some_iff]
      cases s with
      | nil => grind
      | cons c s => grind [noNul_cons]

/-- A printed string is read up to its `0x00`. -/
theorem decodeStringOperand_eq_ok :
    decodeStringOperand bs = .ok (i, rest) ↔ ∃ s, i = .lcdPrint s ∧ noNul s = true ∧ bs = s ++ 0 :: rest := by
  constructor
  · intro h
    unfold decodeStringOperand at h
    split at h <;> cases h
    exact ⟨_, rfl, splitString_eq_some.1 ‹_›⟩
  · rintro ⟨s, rfl, hs⟩
    rw [decodeStringOperand, splitString_eq_some.2 hs]

/-! ### Host commands (R101, R109, R112) -/

/-- The opcodes that select no operation are read as reserved ones. -/
theorem decodeHc_reserved {op : Byte} (h : reservedLow op = true ∨ reservedHigh op = true) :
    decodeHc (op :: bs) = .ok (if reservedLow op then .hcReservedLow op else .hcReservedHigh op, bs) := by
  simp only [reservedLow, reservedHigh, Bool.and_eq_true, decide_eq_true_eq] at h
  simp only [decodeHc]
  split
  case h_19 => split <;> rfl
  all_goals omega

/-- The low range is read as low, -/
theorem decodeHc_reservedLow {op : Byte} (h : reservedLow op = true) :
    decodeHc (op :: bs) = .ok (.hcReservedLow op, bs) := by
  rw [decodeHc_reserved (.inl h), if_pos h]

/-- and the high range, which lies above it, as high. -/
theorem decodeHc_reservedHigh {op : Byte} (h : reservedHigh op = true) :
    decodeHc (op :: bs) = .ok (.hcReservedHigh op, bs) := by
  have hlow : ¬reservedLow op = true := by
    simp only [reservedLow, reservedHigh, Bool.and_eq_true, decide_eq_true_eq] at h ⊢
    omega
  rw [decodeHc_reserved (.inr h), if_neg hlow]

/-- A well-formed command's bytes decode to it, whatever follows them. -/
theorem decodeHc_of_encode (hw : i.wellFormed = true) (h : encode i = .hc bs) (rest : List Byte) :
    decodeHc (bs ++ rest) = .ok (i, rest) := by
  cases i with
  | kpdInit | kpdClear | kpdGet | kpdWait | kpdGetWait | kpdGetChar | kpdGetCharWait | lcdInit | lcdClear | lcdHome
  | lcdCursorSet _ _ | lcdCursorShow | lcdCursorHide => cases h; rfl
  | kpdToChar v | lcdWriteInstr v | lcdWriteData v => cases h; exact decodeWordOperand_eq_ok.2 ⟨v, rfl, rfl⟩
  | kpdSetCharLut table => cases h; exact decodeTableOperand_eq_ok.2 ⟨table, rfl, rfl⟩
  | lcdPrint s => cases h; exact decodeStringOperand_eq_ok.2 ⟨s, rfl, hw, by simp⟩
  | hcReservedLow op => cases h; exact decodeHc_reservedLow hw
  | hcReservedHigh op => cases h; exact decodeHc_reservedHigh hw
  | _ => cases h

/-- The bytes that a command is decoded from are its own encoding, and it is well-formed. -/
theorem encode_of_decodeHc (h : decodeHc bs = .ok (i, rest)) :
    i.wellFormed = true ∧ ∃ own, encode i = .hc own ∧ bs = own ++ rest := by
  cases bs with
  | nil => cases h
  | cons op bs =>
    simp only [decodeHc] at h
    split at h
    -- The cases are numbered as the opcode match lists them.
    case h_8 hop | h_17 hop | h_18 hop => -- 0x07, 0x87, 0x88
      obtain ⟨w, rfl, rfl⟩ := decodeWordOperand_eq_ok.1 h
      exact ⟨rfl, _, rfl, congrArg (· :: _) (BitVec.eq_of_toNat_eq hop)⟩
    case h_9 hop => -- 0x08
      obtain ⟨table, rfl, rfl⟩ := decodeTableOperand_eq_ok.1 h
      exact ⟨rfl, _, rfl, congrArg (· :: _) (BitVec.eq_of_toNat_eq hop)⟩
    case h_13 hop => -- 0x83
      obtain ⟨x, y, rfl, rfl⟩ := decodeCursorOperands_eq_ok.1 h
      exact ⟨rfl, _, rfl, congrArg (· :: _) (BitVec.eq_of_toNat_eq hop)⟩
    case h_16 hop => -- 0x86
      obtain ⟨s, rfl, hs, rfl⟩ := decodeStringOperand_eq_ok.1 h
      refine ⟨hs, _, rfl, ?_⟩
      rw [BitVec.eq_of_toNat_eq (y := 0x86#8) hop, List.cons_append, List.append_assoc]
      rfl
    case h_19 => -- a reserved opcode
      split at h <;> cases h
      · exact ⟨‹_›, _, rfl, rfl⟩
      · refine ⟨?_, _, rfl, rfl⟩
        simp only [Instr.wellFormed, reservedLow, reservedHigh, Bool.and_eq_true, decide_eq_true_eq, imp_false] at *
        omega
    all_goals -- a command without operands
      rename_i hop
      cases h
      exact ⟨rfl, _, rfl, congrArg (· :: _) (BitVec.eq_of_toNat_eq hop)⟩

/-! ### Interrupt events (R103) -/

/-- An event's line number is read back, -/
theorem decodeIrq_of_encode {c : BitVec 2} (h : encode i = .irq c) : decodeIrq c = i := by
  cases i with
  | kpdIsrCol0 | kpdIsrCol1 | kpdIsrCol2 | kpdIsrCol3 => cases h; rfl
  | _ => cases h

/-- and every line number is an event's. -/
theorem encode_decodeIrq (c : BitVec 2) : encode (decodeIrq c) = .irq c ∧ (decodeIrq c).wellFormed = true := by
  decide +revert

/-! ### Bus words (R104, R105, R110) -/

theorem bit_getLsbD_zero (b : Bool) : (bit b).getLsbD 0 = b := by cases b <;> rfl

/-- One bit of a word, as a field of width 1. -/
theorem bit_getLsbD {n : Nat} (w : BitVec n) (k : Nat) : bit (w.getLsbD k) = w.extractLsb' k 1 := by
  apply BitVec.eq_of_getLsbD_eq
  intro j hj
  obtain rfl : j = 0 := by omega
  simp [bit_getLsbD_zero, -BitVec.getLsbD_eq_getElem]

theorem busWord_rs (rs rw : Bool) (d : Byte) : (busWord rs rw d).getLsbD 9 = rs := by
  simp only [busWord, BitVec.getLsbD_append]
  exact bit_getLsbD_zero rs

theorem busWord_rw (rs rw : Bool) (d : Byte) : (busWord rs rw d).getLsbD 8 = rw := by
  simp only [busWord, BitVec.getLsbD_append]
  exact bit_getLsbD_zero rw

theorem busWord_byte (rs rw : Bool) (d : Byte) : (busWord rs rw d).extractLsb' 0 8 = d :=
  BitVec.extractLsb'_append_eq_right

/-- A bus word is its two lines and its byte. -/
theorem busWord_of_lines (w : BusWord) : busWord (w.getLsbD 9) (w.getLsbD 8) (w.extractLsb' 0 8) = w := by
  simp only [busWord, bit_getLsbD, BitVec.extractLsb'_append_extractLsb'_eq_extractLsb']
  exact BitVec.extractLsb'_eq_self

/-- A bus word decodes by its lines, and an instruction by its byte. -/
theorem decodeBus_busWord (rs rw : Bool) (d : Byte) :
    decodeBus (busWord rs rw d) =
      if rw then (if rs then .ok (.readData d) else .ok (.readBfAc d))
      else if rs then .ok (.writeData d) else decodeBus (busWord false false d) := by
  simp only [decodeBus, busWord_rs, busWord_rw, busWord_byte]
  cases rs <;> cases rw <;> rfl

/-- A word that encodes an instruction decodes to it: its class is that of its most significant 1 bit, and each of its
fields stands below. -/
theorem decodeBus_of_encode {w : BusWord} (h : encode i = .lb w) : decodeBus w = .ok i := by
  cases i with
  | writeData b | readBfAc b | readData b => cases h; rw [decodeBus_busWord]; rfl
  | clearDisplay => cases h; rfl
  | returnHome _ | entryModeSet _ _ | displayControl _ _ _ =>
    cases h
    simp only [decodeBus, busWord_rs, busWord_rw, busWord_byte, BitVec.getLsbD_append]
    simp [bit_getLsbD_zero, -BitVec.getLsbD_eq_getElem]
  | cursorDisplayShift _ _ _ | functionSet _ _ _ _ | setCgramAddr _ | setDdramAddr _ =>
    cases h
    simp only [decodeBus, busWord_rs, busWord_rw, busWord_byte, BitVec.getLsbD_append]
    simpa [bit_getLsbD_zero, -BitVec.getLsbD_eq_getElem] using BitVec.extractLsb'_append_eq_right
  | _ => cases h

/-- No bit of `d` above `k` is set. -/
abbrev ClearAbove (d : Byte) (k : Nat) : Prop := ∀ j, k < j → d.getLsbD j = false

/-- A byte that is not 0 has a most significant 1 bit. -/
theorem exists_leadingOne {d : Byte} (hd : d ≠ 0) : ∃ k < 8, d.getLsbD k = true ∧ ClearAbove d k := by
  obtain ⟨j, hj⟩ : ∃ j, d.getLsbD j = true := by
    by_contra! hc
    exact hd (BitVec.eq_of_getLsbD_eq fun j _ => by simpa using hc j)
  have hj8 : j < 8 := BitVec.lt_of_getLsbD hj
  refine ⟨Nat.findGreatest (d.getLsbD · = true) 7, Nat.lt_succ_of_le (Nat.findGreatest_le 7),
    Nat.findGreatest_spec (P := (d.getLsbD · = true)) (Nat.le_of_lt_succ hj8) hj, fun l hl => ?_⟩
  by_cases h8 : l < 8
  · simpa using Nat.findGreatest_is_greatest hl (Nat.le_of_lt_succ h8)
  · exact BitVec.getLsbD_of_ge d l (Nat.le_of_not_lt h8)

/-- The bits from the most significant 1 bit up are a 1 and zeros. -/
theorem ClearAbove.leadingOne {d : Byte} {k n : Nat} (h : ClearAbove d k) (hk : d.getLsbD k = true) (hn : 0 < n) :
    1#n = d.extractLsb' k n := by
  apply BitVec.eq_of_getLsbD_eq
  intro j hj
  rw [BitVec.getLsbD_extractLsb', BitVec.getLsbD_one]
  cases j with
  | zero => simp [hn, hk, -BitVec.getLsbD_eq_getElem]
  | succ j => simp [h (k + (j + 1)) (by omega)]

/-- Instruction words are compared by their bytes. -/
theorem instructionWord_congr {e d : Byte} (h : e = d.extractLsb' 0 8) :
    Code.lb (busWord false false e) = .lb (busWord false false d) := by
  rw [h, BitVec.extractLsb'_eq_self]

/-- An instruction's word is the encoding of what it decodes to: the class bits end in the most significant 1 bit, and
the fields below it, joined, are the rest of the byte. -/
theorem encode_of_decodeBus_instruction {d : Byte} (h : decodeBus (busWord false false d) = .ok i) :
    encode i = .lb (busWord false false d) := by
  by_cases hd : d = 0
  · subst hd
    cases h
  · obtain ⟨k, hk8, hk, above⟩ := exists_leadingOne hd
    have one := above.leadingOne hk (n := 8 - k) (by omega)
    simp only [decodeBus, busWord_rs, busWord_rw, busWord_byte] at h
    interval_cases k
    all_goals
      simp only [Nat.reduceSub] at one
      simp only [hk, above _, Nat.reduceLT, Bool.false_eq_true, if_true, if_false, Except.ok.injEq] at h
      subst h
      apply instructionWord_congr
      simp only [bit_getLsbD, one, BitVec.extractLsb'_append_extractLsb'_eq_extractLsb']

/-- A word is the encoding of what it decodes to. -/
theorem encode_of_decodeBus {w : BusWord} (h : decodeBus w = .ok i) : encode i = .lb w := by
  rw [← busWord_of_lines w] at h ⊢
  rw [decodeBus_busWord] at h
  cases hrw : w.getLsbD 8 <;> cases hrs : w.getLsbD 9 <;> rw [hrw, hrs] at h
  case false.false => exact encode_of_decodeBus_instruction h
  all_goals cases h; rfl

/-- Only host commands can be ill-formed. -/
theorem wellFormed_of_lb {w : BusWord} (h : encode i = .lb w) : i.wellFormed = true := by
  cases i <;> cases h <;> rfl

/-! ### The statements of 30_encoding -/

/-- Settles O1: each format by its own round trip. -/
theorem encodingRoundTrips : Obligations.EncodingRoundTrips := by
  unfold Obligations.EncodingRoundTrips
  intro i hw
  split
  · exact decodeHc_of_encode hw ‹_›
  · exact decodeIrq_of_encode ‹_›
  · exact decodeBus_of_encode ‹_›

/-- Settles O2: each format by the way back. -/
theorem decodingIsUnambiguous : Obligations.DecodingIsUnambiguous := by
  unfold Obligations.DecodingIsUnambiguous
  intro code i h
  cases code with
  | hc bytes =>
    obtain ⟨hw, own, henc, rfl⟩ := encode_of_decodeHc h
    rw [List.append_nil]
    exact ⟨henc, hw⟩
  | irq c =>
    cases h
    exact encode_decodeIrq c
  | lb w =>
    simp only [decode] at h
    split at h <;> cases h
    have henc := encode_of_decodeBus ‹_›
    exact ⟨henc, wellFormed_of_lb henc⟩

/-- Settles O3: both ranges by `decodeHc_reserved`; their meaning is the refusal. -/
theorem reservedOpcodesAreRefused : Obligations.ReservedOpcodesAreRefused := by
  unfold Obligations.ReservedOpcodesAreRefused
  intro op rest s
  refine ⟨fun h => ⟨decodeHc_reservedLow ?_, rfl⟩, fun h => ⟨decodeHc_reservedHigh ?_, rfl⟩⟩
  · simpa [reservedLow] using h
  · simpa [reservedHigh] using h

/-- Settles O4: the decoder computes each. -/
theorem specWordsDecode : Obligations.SpecWordsDecode :=
  ⟨rfl, rfl, rfl, rfl, rfl, rfl, rfl, rfl, rfl, rfl, rfl, rfl⟩

end Sys2Proof

namespace Sys2Proof.Machine

/-- An idle foreground with no whole command in its port waits. -/
theorem foreground_waits {s : State} {e : DecodeError} (h : s.fgpos = .idle) (hd : decodeHc s.port = .error e) :
    foreground s = .next s.turnOver := by
  simp [foreground, h, hd]

/-- Settles O5: the step is the foreground's turn, which accepts or waits. -/
theorem stepRunsTheDecodedCommand : Obligations.StepRunsTheDecodedCommand := by
  unfold Obligations.StepRunsTheDecodedCommand
  intro s h1 h2 h3 hidle hr
  obtain ⟨hisr, hfg⟩ := hidle
  have hstep : step s = foreground s := (step_default h1 h2 h3).trans (defaultTurn_foreground hisr hr)
  exact ⟨fun _ _ hd => hstep.trans (foreground_accepts hfg hd), fun _ hd => hstep.trans (foreground_waits hfg hd)⟩

/-- A word that decodes to nothing is refused as reserved. -/
theorem latchWord_noClass {w : BusWord} {e : DecodeError} (h : decodeBus w = .error e) (s : State) :
    latchWord w s = .refused (.lcdReserved (w.setWidth 32) s.pos) := by
  simp [latchWord, h]

/-- Settles O49: the read words' meanings are their refusal, and 0x000 has no class. -/
theorem readWordsAreRefused : Obligations.ReadWordsAreRefused := by
  unfold Obligations.ReadWordsAreRefused
  exact fun s x => ⟨rfl, rfl, latchWord_noClass (e := .noBusClass) rfl s⟩

end Sys2Proof.Machine
end

section
/-! PROOFS. The statements of 40_keypad: key codes and characters (R140 to R146), the slot (R145). -/

namespace Sys2Proof.Machine

variable {s t : State}

/-! ### Key codes and the row table (R35, R140, R141) -/

/-- The key code as a number: the sum does not overflow a byte. -/
theorem keyCode_toNat (r : Row) (c : Col) : (keyCode r c).toNat = 4 * r.val + c.val + 1 := by
  rw [keyCode, BitVec.toNat_ofNat, Nat.mod_eq_of_lt (by omega)]

/-- Every code 1 to 16 is the key code of its own row and column. -/
theorem exists_keyCode {k : Byte} (h1 : 1 ≤ k.toNat) (h16 : k.toNat ≤ 16) : ∃ (r : Row) (c : Col), keyCode r c = k := by
  refine ⟨⟨(k.toNat - 1) / 4, by omega⟩, ⟨(k.toNat - 1) % 4, by omega⟩, BitVec.eq_of_toNat_eq ?_⟩
  rw [keyCode_toNat]
  dsimp only
  omega

/-- The row table reads P18 and the sample alone, and its rows are these (R35). -/
theorem rowlut_rows (c : Config) :
    (∀ r : Row, rowlut c (maskBit 4 true r.val) = .row r) ∧
    rowlut c 0 = (match c.rowlutIndex0 with | .noMatch => .noMatch | .row0 => .row 0) ∧
    ∀ s : BitVec 4, s ≠ 0 → (∀ r : Row, s ≠ maskBit 4 true r.val) → rowlut c s = .noMatch := by
  unfold rowlut
  cases c.rowlutIndex0 <;> decide

/-- Settles O26: the code by `keyCode_toNat`, its inverse by division, the table by its rows. -/
theorem keyCodesAndRowTable : Obligations.KeyCodesAndRowTable := by
  unfold Obligations.KeyCodesAndRowTable
  refine ⟨fun r c => ?_, fun k h1 h16 => exists_keyCode h1 h16, rowlut_rows⟩
  rw [keyCode_toNat]
  omega

/-! ### Characters (R146) -/

/-- A key within the table's entries reads its entry. -/
theorem toChar_entry (lut : Vector Byte 17) {n : Nat} (h1 : 1 ≤ n) (h17 : n < 17) :
    toChar lut (BitVec.ofNat 32 n) = lut[n] := by
  have hnat : (BitVec.ofNat 32 n).toNat = n := by
    rw [BitVec.toNat_ofNat, Nat.mod_eq_of_lt (by omega)]
  have hint : (BitVec.ofNat 32 n).toInt = n := by
    rw [BitVec.toInt_eq_toNat_of_lt (by omega), hnat]
  have h16 : (1 ≤ (n : Int) && (n : Int) ≤ 16) = true := by
    simp only [Bool.and_eq_true, decide_eq_true_eq]
    omega
  rw [toChar, hint, if_pos h16, hnat, List.getD_eq_getElem _ _ (by simpa using h17)]
  simp

/-- Every key outside 1 to 16 has no character, whatever the table holds. -/
theorem toChar_outside (lut : Vector Byte 17) {key : Word} (h : key.toInt ≤ 0 ∨ 16 < key.toInt) :
    toChar lut key = 0 := by
  rw [toChar, if_neg]
  simp only [Bool.and_eq_true, decide_eq_true_eq]
  omega

/-- The slot's byte is no negative key. -/
theorem keyOfByte_toInt (v : Byte) : (keyOfByte v).toInt = v.toNat := by
  have hnat : (keyOfByte v).toNat = v.toNat := by
    rw [keyOfByte, BitVec.toNat_setWidth, Nat.mod_eq_of_lt (by omega)]
  rw [BitVec.toInt_eq_toNat_of_lt (by omega), hnat]

/-- Settles O24: the entries, the other keys, and the slot's byte, each by its lemma. -/
theorem toCharReadsTheTable : Obligations.ToCharReadsTheTable := by
  unfold Obligations.ToCharReadsTheTable
  exact fun lut => ⟨fun n h => toChar_entry lut h n.isLt, fun key h => toChar_outside lut h, keyOfByte_toInt⟩

/-! ### The slot stays a key code (R145) -/

/-- The environment's steps leave the slot, but for reset, which empties it. -/
theorem envStep_slot {e : EnvStep} (h : envStep e s = .next t) : t.slot = s.slot ∨ t.slot = 0 := by
  cases e with
  | key _ _ _ | bounce _ => cases h; exact .inl rfl
  | reset => cases h; exact .inr rfl
  | lcdPowered => cases h; left; simp only [settle_slot, powerLcd]; split <;> rfl
  | tableChanged =>
    simp only [envStep] at h
    split at h <;> cases h
    exact .inl rfl

/-- A slot that is as it was, or empty, is a key code if it was one. -/
theorem slotLegal_of_kept_or_zero (hs : SlotLegal s) (h : t.slot = s.slot ∨ t.slot = 0) : SlotLegal t := by
  rcases h with h | h <;> rw [SlotLegal, h]
  · exact hs
  · decide

/-- The slot is written with 0 and with key codes only. -/
theorem keptByStep_slotLegal : KeptByStep SlotLegal where
  fgpos _ _ h := h
  isrpos _ _ h := h
  turnOver _ h := h
  accept _ h := h
  settle _ h := h
  micro _ _ _ _ h hm := by
    rcases micro_slot hm with hk | ⟨-, hk⟩ | ⟨c, r, -, hk⟩
    · exact slotLegal_of_kept_or_zero h (.inl hk)
    · exact slotLegal_of_kept_or_zero h (.inr hk)
    · rw [SlotLegal, hk, keyCode_toNat]
      omega
  device _ _ _ h hd := slotLegal_of_kept_or_zero h (.inl (deviceExec_cells hd).slot)
  quantum _ _ h := h
  port _ _ h := h
  sched _ _ h := h
  env _ _ _ h he := slotLegal_of_kept_or_zero h (envStep_slot he)

/-- Settles O54: every part of a step keeps the slot a key code, so the step does. -/
theorem slotStaysAKeyCode : Obligations.SlotStaysAKeyCode := by
  unfold Obligations.SlotStaysAKeyCode
  exact fun s t hs h => step_keeps keptByStep_slotLegal hs h

end Sys2Proof.Machine
end

section
/-! PROOFS. The statements of 40_keypad: the column handlers (R148 to R159, R166). A scan is followed by the number of
its micro-steps that are done; what holds after each of them holds where the handler's turn ends. -/

namespace Sys2Proof.Machine

variable {s t u : State} {c : Col}

/-! ### Register fields the keypad's updates write (R47) -/

theorem lowNibble_getLsbD (i : Nat) : (0xF : Word).getLsbD i = decide (i < 4) := by
  by_cases h : i < 32
  · have : ∀ j : Fin 32, (0xF : Word).getLsbD j.val = decide (j.val < 4) := by decide
    exact this ⟨i, h⟩
  · rw [BitVec.getLsbD_of_ge _ i (by omega), decide_eq_false (by omega)]

/-- S1 clears the four lines' bits, -/
theorem linesOff_low (g : Config) (w : Word) : (Upd.linesOff.apply g w).extractLsb' 0 4 = 0#4 := by
  apply BitVec.eq_of_getLsbD_eq
  intro i hi
  simp only [Upd.apply, BitVec.getLsbD_extractLsb', BitVec.getLsbD_and, BitVec.getLsbD_not, lowNibble_getLsbD]
  simp [hi]

/-- and keeps every other bit. -/
theorem linesOff_high (g : Config) (w : Word) :
    (Upd.linesOff.apply g w).extractLsb' 4 28 = w.extractLsb' 4 28 := by
  apply BitVec.eq_of_getLsbD_eq
  intro i hi
  have h32 : 4 + i < 32 := by omega
  simp only [Upd.apply, BitVec.getLsbD_extractLsb', BitVec.getLsbD_and, BitVec.getLsbD_not, lowNibble_getLsbD]
  simp [h32]

/-- K6, K7 and S8 set the four lines' bits, -/
theorem linesOn_low (g : Config) (w : Word) : (Upd.linesOn.apply g w).extractLsb' 0 4 = 0xF#4 := by
  apply BitVec.eq_of_getLsbD_eq
  intro i hi
  simp only [Upd.apply, BitVec.getLsbD_extractLsb', BitVec.getLsbD_or, lowNibble_getLsbD]
  interval_cases i <;> simp

/-- and keep every other bit. -/
theorem linesOn_high (g : Config) (w : Word) :
    (Upd.linesOn.apply g w).extractLsb' 4 28 = w.extractLsb' 4 28 := by
  apply BitVec.eq_of_getLsbD_eq
  intro i hi
  simp only [Upd.apply, BitVec.getLsbD_extractLsb', BitVec.getLsbD_or, lowNibble_getLsbD]
  simp

/-- S7 clears a line's bit, so none above the four. -/
theorem ack_shift (p : Word) (c : Col) : (p &&& ~~~(maskBit 32 true c.val)) >>> 4 = p >>> 4 := by
  apply BitVec.eq_of_getLsbD_eq
  intro i hi
  rw [BitVec.getLsbD_ushiftRight, BitVec.getLsbD_ushiftRight]
  apply clear_keeps_unwritten
  rw [maskBit_getLsbD, decide_eq_false (by omega)]
  simp

/-! ### The micro-steps of a scan (R150) -/

/-- An update that is not I2's writes its register alone. -/
theorem micro_write_next {x : Ctx} {r : Role} {v : Upd} (h : micro x (.write r v) s = .next t) (hv : v ≠ .lcdOutput) :
    t = { s with regs := storeRole s.cfg.lcdShares r (v.apply s.cfg (localT x s)) s.regs } := by
  rw [micro] at h
  rw [regUpdate_next h, State.directed, beq_eq_false_iff_ne.2 hv, Bool.or_false]

/-- What micro-step `n + 1` of `Scan(c)` does, before the re-evaluation that ends it. -/
inductive ScanStep (c : Col) : Nat → State → State → Prop
  | readMask (s : State) : ScanStep c 0 s { s with isrT := s.regs.imr }
  | mask (s : State) :
      ScanStep c 1 s { s with regs := { s.regs with imr := Upd.linesOff.apply s.cfg s.isrT } }
  | readSwap (s : State) : ScanStep c 2 s { s with isrT := s.regs.mode }
  | swap (s : State) :
      ScanStep c 3 s { s with regs := { s.regs with mode := Upd.modeScan.apply s.cfg s.isrT } }
  | debounce (s : State) : ScanStep c 4 s (s.delay s.cfg.tDebounce)
  | sample (s : State) :
      ScanStep c 5 s { s with isrT := idrWord s, isrS := rowSample s.cfg (pinLevels s), draws := s.draws + 1 }
  | lookup (s : State) : ScanStep c 6 s { s with isrR := rowlut s.cfg s.isrS }
  | record (s : State) : ScanStep c 7 s (recordKey c s)
  | readRestore (s : State) : ScanStep c 8 s { s with isrT := s.regs.mode }
  | restore (s : State) :
      ScanStep c 9 s { s with regs := { s.regs with mode := Upd.modeIdle.apply s.cfg s.isrT } }
  | ack (s : State) :
      ScanStep c 10 s { s with regs := { s.regs with pr := s.regs.pr &&& ~~~(maskBit 32 true c.val) } }
  | readUnmask (s : State) : ScanStep c 11 s { s with isrT := s.regs.imr }
  | unmask (s : State) :
      ScanStep c 12 s { s with regs := { s.regs with imr := Upd.linesOn.apply s.cfg s.isrT } }

/-- `scanProgram` by what its micro-steps do. -/
theorem scanStep_of_micro {n : Nat} {m : Micro} (hm : (scanProgram c)[n]? = some m) (h : micro .isr m s = .next t) :
    ScanStep c n s t := by
  match n with
  | 0 => cases hm; cases h; exact .readMask s
  | 1 => cases hm; rw [micro_write_next h (by decide)]; exact .mask s
  | 2 => cases hm; rw [microRead_next h]; exact .readSwap s
  | 3 => cases hm; rw [micro_write_next h (by decide)]; exact .swap s
  | 4 => cases hm; cases h; exact .debounce s
  | 5 => cases hm; rw [sampleRows_next h]; exact .sample s
  | 6 => cases hm; cases h; exact .lookup s
  | 7 => cases hm; cases h; exact .record s
  | 8 => cases hm; rw [microRead_next h]; exact .readRestore s
  | 9 => cases hm; rw [micro_write_next h (by decide)]; exact .restore s
  | 10 => cases hm; cases h; exact .ack s
  | 11 => cases hm; cases h; exact .readUnmask s
  | 12 => cases hm; rw [micro_write_next h (by decide)]; exact .unmask s
  | n + 13 => cases hm

/-- S5's record is the scan's one micro-step that may be left out (R151). -/
theorem record_of_skipsRecord {n : Nat} {m : Micro} (hm : (scanProgram c)[n]? = some m) (h : skipsRecord m s = true) :
    n = 7 ∧ s.isrR = .noMatch := by
  match n with
  | 7 =>
    cases hm
    refine ⟨rfl, ?_⟩
    unfold skipsRecord at h
    split at h
    · assumption
    · cases h
  | 0 | 1 | 2 | 3 | 4 | 5 | 6 | 8 | 9 | 10 | 11 | 12 => cases hm; cases h
  | n + 13 => cases hm

/-! ### What holds along a scan -/

/-- `P n` holds after `n` micro-steps of `Scan(c)`, each with its re-evaluation, if it does before them: it does not
speak of the handler's position or of the turn's bound. -/
structure ScanInvariant (c : Col) (P : Nat → State → Prop) : Prop where
  isrpos : ∀ n s p, P n s → P n { s with isrpos := p }
  turnOver : ∀ n s, P n s → P n s.turnOver
  step : ∀ n s t, P n s → ScanStep c n s t → P (n + 1) t.settle
  skip : ∀ s, P 7 s → s.isrR = .noMatch → P 8 s

variable {P : Nat → State → Prop}

/-- Where a handler's turn ends: returned after the whole scan, or as many positions on as micro-steps are done. -/
theorem runIsr_scan (h : ScanInvariant c P) {j k : Nat} {q : Option Nat} (hs : P j s)
    (hr : runIsr c k ((scanProgram c).drop j) q s = .next t) :
    ∃ n, P n t ∧ j ≤ n ∧
      (t.isrpos = none ∧ 13 ≤ n ∨ t.isrpos = some { col := c, k := k + (n - j) }) := by
  generalize hms : (scanProgram c).drop j = ms at hr
  induction ms generalizing j k q s with
  | nil =>
    have hj : 13 ≤ j := List.drop_eq_nil_iff.1 hms
    simp only [runIsr] at hr
    split at hr <;> cases hr
    · exact ⟨j, h.isrpos _ _ _ hs, le_rfl, .inr (by simp)⟩
    · exact ⟨j, h.isrpos _ _ _ hs, le_rfl, .inl ⟨rfl, hj⟩⟩
  | cons m rest ih =>
    have hm : (scanProgram c)[j]? = some m := by
      rw [← Nat.add_zero j, ← List.getElem?_drop, hms, List.getElem?_cons_zero]
    have hrest : (scanProgram c).drop (j + 1) = rest := by rw [← List.tail_drop, hms, List.tail_cons]
    have hnext {v : State} {q' : Option Nat} (hv : P (j + 1) v) (hr' : runIsr c (k + 1) rest q' v = .next t) :
        ∃ n, P n t ∧ j ≤ n ∧
          (t.isrpos = none ∧ 13 ≤ n ∨ t.isrpos = some { col := c, k := k + (n - j) }) := by
      obtain ⟨n, hn, hj, hpos⟩ := ih hv hrest hr'
      rw [show k + 1 + (n - (j + 1)) = k + (n - j) by omega] at hpos
      exact ⟨n, hn, by omega, hpos⟩
    simp only [runIsr] at hr
    split at hr
    · obtain ⟨rfl, hno⟩ := record_of_skipsRecord hm ‹_›
      exact hnext (h.skip _ hs hno) hr
    · split at hr
      · cases hr
        exact ⟨j, h.isrpos _ _ _ hs, le_rfl, .inr (by simp)⟩
      · split at hr
        · exact hnext (h.step _ _ _ (h.isrpos _ _ _ hs) (scanStep_of_micro hm ‹_›)) hr
        · cases hr
        · cases hr

/-- An interrupt event is not taken, enters its handler, or is its own running handler's turn (R272, R274). -/
theorem exec_isrInstr_cases (h : exec (isrInstr c) s = .next t) :
    t = s.turnOver ∨
    (s.isrpos = none ∧ runIsr c 1 (scanProgram c) s.quantum (enterHandler c s.turnOver) = .next t) ∨
    ∃ k, s.isrpos = some { col := c, k := k } ∧
      runIsr c k ((scanProgram c).drop (k - 1)) s.quantum s.turnOver = .next t := by
  rw [exec_isrInstr, columnHandler] at h
  split at h
  · split at h
    · exact .inr (.inl ⟨‹_›, h⟩)
    · cases h; exact .inl rfl
  · rename_i p hp
    split at h
    · rename_i hc
      subst hc
      exact .inr (.inr ⟨p.k, hp, h⟩)
    · cases h; exact .inl rfl

/-- How many micro-steps the scan at hand has done: none before it is entered. -/
def scanDone (s : State) : Nat :=
  match s.isrpos with
  | some p => p.k - 1
  | none => 0

theorem scanDone_idle (h : s.isrpos = none) : scanDone s = 0 := by simp [scanDone, h]

theorem scanDone_at {p : IsrPos} (h : s.isrpos = some p) : scanDone s = p.k - 1 := by simp [scanDone, h]

/-- An interrupt event keeps what a scan keeps. -/
theorem handler_invariant (h : ScanInvariant c P) (hs : P (scanDone s) s) (hr : exec (isrInstr c) s = .next t) :
    ∃ n, P n t := by
  rcases exec_isrInstr_cases hr with rfl | ⟨hi, hrun⟩ | ⟨k, hi, hrun⟩
  · exact ⟨_, h.turnOver _ _ hs⟩
  · rw [scanDone_idle hi] at hs
    obtain ⟨n, hn, -⟩ := runIsr_scan (j := 0) h (h.isrpos _ _ _ (h.turnOver _ _ hs)) hrun
    exact ⟨n, hn⟩
  · rw [scanDone_at hi] at hs
    obtain ⟨n, hn, -⟩ := runIsr_scan h (h.turnOver _ _ hs) hrun
    exact ⟨n, hn⟩

/-- The handler of line `c` goes on, or is entered. -/
abbrev HandlerTaken (c : Col) (s : State) : Prop :=
  (s.isrpos = none ∧ req s c = true) ∨ ∃ k, s.isrpos = some { col := c, k := k }

/-- With the port's clock on nothing stops what is left of a scan (R37). -/
theorem runIsr_returns {j k : Nat} {q : Option Nat} (hc : clocked s .mode = true) (hq : ∀ m, q = some m → 14 ≤ m) :
    ∃ t, runIsr c k ((scanProgram c).drop j) q s = .next t ∧ t.isrpos = none := by
  obtain ⟨t, hr, -, hret, -⟩ := runIsr_proceeds (keptByControl_clocksRun scanRoles s.kpdInit) (c := c) (k := k) (q := q)
    (fun m hm => proceeds_of_runsOn .isr (scanProgram_runsOn c) m (List.mem_of_mem_drop hm)) (clocksRun_scan hc)
  refine ⟨t, hr, hret fun n hn => ?_⟩
  have hlen : (scanProgram c).length = 13 := rfl
  have := hq n hn
  rw [List.length_drop, hlen]
  omega

/-- A handler that is taken runs what is left of its scan. -/
theorem exec_taken (h : HandlerTaken c s) : ∃ k p,
    exec (isrInstr c) s = runIsr c k ((scanProgram c).drop (scanDone s)) s.quantum { s.turnOver with isrpos := p } := by
  rw [exec_isrInstr]
  rcases h with ⟨hi, hr⟩ | ⟨k, hi⟩
  · rw [columnHandler_entered hi hr, scanDone_idle hi]
    exact ⟨1, some { col := c, k := 1 }, rfl⟩
  · rw [columnHandler_resumed hi, scanDone_at hi]
    exact ⟨k, s.isrpos, rfl⟩

/-- A handler with the port's clock on and a long enough turn returns after its whole scan, with whatever holds along
it. -/
theorem handler_returns (ht : HandlerTaken c s) (hc : clocked s .mode = true) (hq : ScanRuns s) :
    ∃ t, exec (isrInstr c) s = .next t ∧ t.isrpos = none ∧
      ∀ P, ScanInvariant c P → P (scanDone s) s → ∃ n, 13 ≤ n ∧ P n t := by
  have hlong : ∀ m, s.quantum = some m → 14 ≤ m := by
    intro m hm
    rcases hq with hq | ⟨m', hq, hle⟩ <;> rw [hq] at hm <;> cases hm
    exact hle
  obtain ⟨k, p, hexec⟩ := exec_taken ht
  obtain ⟨t, hrun, hnone⟩ := runIsr_returns (s := { s.turnOver with isrpos := p }) hc hlong
  refine ⟨t, hexec.trans hrun, hnone, fun P h hs => ?_⟩
  obtain ⟨n, hn, -, ⟨-, h13⟩ | hpos⟩ := runIsr_scan h (h.isrpos _ _ p (h.turnOver _ _ hs)) hrun
  · exact ⟨n, h13, hn⟩
  · rw [hnone] at hpos
    cases hpos

end Sys2Proof.Machine
end

section
namespace Sys2Proof.Machine

variable {s t u : State} {c : Col} {P : Nat → State → Prop}

/-! ### The mask (R157, R158) -/

/-- Between S1 and S8 the four lines are masked. -/
def MaskedAt (n : Nat) (t : State) : Prop := 2 ≤ n → n ≤ 12 → t.regs.imr.extractLsb' 0 4 = 0#4

theorem scanInvariant_masked (c : Col) : ScanInvariant c MaskedAt where
  isrpos _ _ _ h := h
  turnOver _ _ h := h
  step n s t h hst h2 h12 := by
    cases hst with
    | mask => exact linesOff_low s.cfg _
    | record => simpa using h (by omega) (by omega)
    | readMask | unmask => omega
    | readSwap | swap | debounce | sample | lookup | readRestore | restore | ack | readUnmask =>
      exact h (by omega) (by omega)
  skip _ h _ _ _ := h (by omega) (by omega)

/-- From S8 on they are unmasked. -/
def UnmaskedAt (n : Nat) (t : State) : Prop := 13 ≤ n → t.regs.imr.extractLsb' 0 4 = 0xF#4

theorem scanInvariant_unmasked (c : Col) : ScanInvariant c UnmaskedAt where
  isrpos _ _ _ h := h
  turnOver _ _ h := h
  step n s t h hst h13 := by
    cases hst with
    | unmask => exact linesOn_low s.cfg _
    | readMask | mask | readSwap | swap | debounce | sample | lookup | record | readRestore | restore | ack
    | readUnmask => omega
  skip _ _ _ h13 := absurd h13 (by decide)

/-! ### The port's directions (R152, R154) -/

/-- From S6 on the keypad's pins have their Idle/Armed directions. -/
def RestoredAt (n : Nat) (t : State) : Prop := 10 ≤ n → t.regs.mode.extractLsb' 0 16 = idleMode t.cfg

theorem scanInvariant_restored (c : Col) : ScanInvariant c RestoredAt where
  isrpos _ _ _ h := h
  turnOver _ _ h := h
  step n s t h hst h10 := by
    cases hst with
    | restore => exact setLow16_low _ _
    | ack | readUnmask | unmask => exact h (by omega)
    | readMask | mask | readSwap | swap | debounce | sample | lookup | record | readRestore => omega
  skip _ _ _ h10 := absurd h10 (by decide)

/-- S2 and S6 write back the half of `MODE` that is not the keypad's (R47). -/
def ModeHighAt (v : BitVec 16) (n : Nat) (t : State) : Prop :=
  t.regs.mode.extractLsb' 16 16 = v ∧ (n = 3 ∨ n = 9 → t.isrT.extractLsb' 16 16 = v)

theorem scanInvariant_modeHigh (c : Col) (v : BitVec 16) : ScanInvariant c (ModeHighAt v) where
  isrpos _ _ _ h := h
  turnOver _ _ h := h
  step n s t h hst := by
    obtain ⟨hm, ht⟩ := h
    cases hst with
    | readSwap | readRestore => exact ⟨hm, fun _ => hm⟩
    | swap => exact ⟨(setLow16_high _ _).trans (ht (.inl rfl)), by omega⟩
    | restore => exact ⟨(setLow16_high _ _).trans (ht (.inr rfl)), by omega⟩
    | record => exact ⟨by simpa using hm, by omega⟩
    | readMask | mask | debounce | sample | lookup | ack | readUnmask | unmask => exact ⟨hm, by omega⟩
  skip _ h _ := ⟨h.1, by omega⟩

/-- S1 and S8 write back the bits of `IMR` that are not the lines' (R47). -/
def MaskHighAt (v : BitVec 28) (n : Nat) (t : State) : Prop :=
  t.regs.imr.extractLsb' 4 28 = v ∧ (n = 1 ∨ n = 12 → t.isrT.extractLsb' 4 28 = v)

theorem scanInvariant_maskHigh (c : Col) (v : BitVec 28) : ScanInvariant c (MaskHighAt v) where
  isrpos _ _ _ h := h
  turnOver _ _ h := h
  step n s t h hst := by
    obtain ⟨hm, ht⟩ := h
    cases hst with
    | readMask | readUnmask => exact ⟨hm, fun _ => hm⟩
    | mask => exact ⟨(linesOff_high s.cfg _).trans (ht (.inl rfl)), by omega⟩
    | unmask => exact ⟨(linesOn_high s.cfg _).trans (ht (.inr rfl)), by omega⟩
    | record => exact ⟨by simpa using hm, by omega⟩
    | readSwap | swap | debounce | sample | lookup | readRestore | restore | ack => exact ⟨hm, by omega⟩
  skip _ h _ := ⟨h.1, by omega⟩

/-! ### The record (R150, R151) -/

/-- What S5 leaves in the slot, from sample `b`: the row table's key, or what it held. -/
def recorded (g : Config) (c : Col) (b : BitVec 4) (v : Byte) : Byte :=
  match rowlut g b with
  | .row r => keyCode r c
  | .noMatch => v

/-- The slot along a scan whose sample is `b`: it holds `v` until S5 decides. -/
structure RecordsAt (g : Config) (c : Col) (b : BitVec 4) (v : Byte) (n : Nat) (t : State) : Prop where
  cfg : t.cfg = g
  sampled : n = 6 → t.isrS = b
  found : n = 7 → t.isrR = rowlut g b
  before : n ≤ 7 → t.slot = v
  after : 8 ≤ n → t.slot = recorded g c b v

/-- Every micro-step but S4 keeps it, and S4 where the sample is `b`. -/
theorem RecordsAt.step {g : Config} {b : BitVec 4} {v : Byte} {n : Nat} (h : RecordsAt g c b v n s)
    (hst : ScanStep c n s t) (hb : n = 5 → rowSample s.cfg (pinLevels s) = b) : RecordsAt g c b v (n + 1) t.settle := by
  obtain ⟨rfl, hs, hf, hbef, haft⟩ := h
  cases hst with
  | sample => exact ⟨rfl, fun _ => hb rfl, by omega, fun _ => hbef (by omega), by omega⟩
  | lookup => exact ⟨rfl, by omega, fun _ => congrArg (rowlut s.cfg) (hs rfl), fun _ => hbef (by omega), by omega⟩
  | record =>
    refine ⟨recordKey_cfg c s, by omega, by omega, by omega, fun _ => ?_⟩
    rw [settle_slot, recordKey, recorded, ← hf rfl]
    cases s.isrR with
    | row r => rfl
    | noMatch => exact hbef (by omega)
  | readMask | mask | readSwap | swap | debounce =>
    exact ⟨rfl, by omega, by omega, fun _ => hbef (by omega), by omega⟩
  | readRestore | restore | ack | readUnmask | unmask =>
    exact ⟨rfl, by omega, by omega, by omega, fun _ => haft (by omega)⟩

/-- With no row there is no write. -/
theorem RecordsAt.skip {g : Config} {b : BitVec 4} {v : Byte} (h : RecordsAt g c b v 7 s) (hno : s.isrR = .noMatch) :
    RecordsAt g c b v 8 s := by
  refine ⟨h.cfg, by omega, by omega, by omega, fun _ => ?_⟩
  rw [recorded, ← h.found rfl, hno]
  exact h.before (by omega)

/-- From S5 on the sample is taken. -/
theorem scanInvariant_records (g : Config) (c : Col) (b : BitVec 4) (v : Byte) :
    ScanInvariant c (fun n t => 6 ≤ n ∧ RecordsAt g c b v n t) where
  isrpos _ _ _ h := ⟨h.1, h.2.cfg, h.2.sampled, h.2.found, h.2.before, h.2.after⟩
  turnOver _ _ h := ⟨h.1, h.2.cfg, h.2.sampled, h.2.found, h.2.before, h.2.after⟩
  step n s t h hst := ⟨by omega, h.2.step hst (by omega)⟩
  skip _ h hno := ⟨by omega, h.2.skip hno⟩

/-- Settles O30: from micro-step 7 on, by the three invariants of the record, the directions and the mask. -/
theorem sampleDecidesTheRecord : Obligations.SampleDecidesTheRecord := by
  unfold Obligations.SampleDecidesTheRecord
  intro s c hpos hc hq
  obtain ⟨t, hexec, hnone, hall⟩ := handler_returns (.inr ⟨7, hpos⟩) hc hq
  have hdone : scanDone s = 6 := scanDone_at hpos
  rw [hdone] at hall
  obtain ⟨n, h13, -, hrec⟩ := hall _ (scanInvariant_records s.cfg c s.isrS s.slot)
    ⟨le_rfl, rfl, fun _ => rfl, by omega, fun _ => rfl, by omega⟩
  obtain ⟨k, hk, hmode⟩ := hall _ (scanInvariant_restored c) (by simp [RestoredAt])
  obtain ⟨l, hl, himr⟩ := hall _ (scanInvariant_unmasked c) (by simp [UnmaskedAt])
  refine ⟨t, hexec, hnone, hrec.after (by omega), ?_, himr hl⟩
  rw [hmode (by omega), hrec.cfg]

/-! ### What a scan leaves alone (R149, R276) -/

/-- The state with the cells that a handler may write put out of sight: `MODE`, `IMR`, `PR`, the slot, its position and
locals, the edge detector's cells, the trace, the turn's bound and the stamp. -/
def State.outsideScan (s : State) : State :=
  { s with
    regs := { s.regs with mode := 0, imr := 0, pr := 0 }
    slot := 0, isrpos := none, isrT := 0, isrS := 0, isrR := .noMatch
    lvl := { c0 := false, c1 := false, c2 := false, c3 := false }
    spoiled := 0, events := [], quantum := none, draws := 0 }

theorem scanInvariant_outside (c : Col) (v : State) : ScanInvariant c (fun _ t => t.outsideScan = v) where
  isrpos _ _ _ h := h
  turnOver _ _ h := h
  step n s t h hst := by
    cases hst with
    | record =>
      rw [← h, recordKey]
      split <;> rfl
    | readMask | mask | readSwap | swap | debounce | sample | lookup | readRestore | restore | ack | readUnmask
    | unmask => exact h
  skip _ h _ := h

/-- A handler changes nothing outside its cells: whatever is read of the rest reads as before. -/
theorem handler_outside {α : Type} (h : exec (isrInstr c) s = .next t) (f : State → α) :
    f t.outsideScan = f s.outsideScan :=
  (handler_invariant (scanInvariant_outside c s.outsideScan) rfl h).elim fun _ h' => congrArg f h'

theorem handler_foregroundKept (h : exec (isrInstr c) s = .next t) : foregroundKept s t :=
  ⟨handler_outside h State.fgpos, handler_outside h State.fgT, handler_outside h State.fgV,
    handler_outside h State.result⟩

/-- The trace along a scan: S3's delay is recorded on it. -/
structure DelayAt (v : List Event) (d : Nat) (n : Nat) (t : State) : Prop where
  cfg : t.cfg.tDebounce = d
  before : n ≤ 4 → t.events = v
  after : 5 ≤ n → t.events = v ++ [.delay d]

theorem scanInvariant_delay (c : Col) (v : List Event) (d : Nat) : ScanInvariant c (DelayAt v d) where
  isrpos _ _ _ h := ⟨h.cfg, h.before, h.after⟩
  turnOver _ _ h := ⟨h.cfg, h.before, h.after⟩
  step n s t h hst := by
    obtain ⟨rfl, hb, ha⟩ := h
    cases hst with
    | readMask | mask | readSwap | swap => exact ⟨rfl, fun _ => hb (by omega), by omega⟩
    | debounce => exact ⟨rfl, by omega, fun _ => congrArg (· ++ [Event.delay s.cfg.tDebounce]) (hb le_rfl)⟩
    | record =>
      refine ⟨congrArg Config.tDebounce (recordKey_cfg c s), by omega, fun _ => ?_⟩
      rw [settle_events, recordKey, ← ha (by omega)]
      split <;> rfl
    | sample | lookup | readRestore | restore | ack | readUnmask | unmask =>
      exact ⟨rfl, by omega, fun _ => ha (by omega)⟩
  skip _ h _ := ⟨h.cfg, by omega, fun _ => h.after (by omega)⟩

/-- No latch is on the trace that was not there: a scan does not touch the LCD's bus. -/
theorem scanInvariant_latches (c : Col) (v : List Event) :
    ScanInvariant c (fun _ t => ∀ w, Event.latch w ∈ t.events → Event.latch w ∈ v) where
  isrpos _ _ _ h := h
  turnOver _ _ h := h
  step n s t h hst := by
    cases hst with
    | debounce => exact fun w hw => h w (by simpa [State.delay] using hw)
    | record =>
      have hev : (recordKey c s).events = s.events := by
        unfold recordKey
        split <;> rfl
      exact fun w hw => h w (hev ▸ hw)
    | readMask | mask | readSwap | swap | sample | lookup | readRestore | restore | ack | readUnmask | unmask =>
      exact h
  skip _ h _ := h

/-! ### Pending bits along a scan (R45, R156, R162) -/

/-- A re-evaluation loses no pending bit. -/
theorem settle_pr_getLsbD {i : Nat} (h : s.regs.pr.getLsbD i = true) : s.settle.regs.pr.getLsbD i = true := by
  simp [h]

/-- S7 clears line `c`'s bit, so that no other is lost, -/
theorem scanInvariant_pending {c : Col} {i : Nat} (hi : i ≠ c.val) :
    ScanInvariant c (fun _ t => t.regs.pr.getLsbD i = true) where
  isrpos _ _ _ h := h
  turnOver _ _ h := h
  step n s t h hst := by
    apply settle_pr_getLsbD
    cases hst with
    | ack =>
      have hbit : (maskBit 32 true c.val).getLsbD i = false := by simp [maskBit_getLsbD, hi]
      exact (clear_keeps_unwritten s.regs.pr _ hbit).trans h
    | record => rwa [recordKey_regs]
    | readMask | mask | readSwap | swap | debounce | sample | lookup | readRestore | restore | readUnmask | unmask =>
      exact h
  skip _ h _ := h

/-- and those above the four lines stay. -/
theorem scanInvariant_pendingHigh (c : Col) (v : Word) : ScanInvariant c (fun _ t => t.regs.pr >>> 4 = v) where
  isrpos _ _ _ h := h
  turnOver _ _ h := h
  step n s t h hst := by
    rw [(settle_pr_kept _).2, ← h]
    cases hst with
    | ack => exact ack_shift _ _
    | record => rw [recordKey_regs]
    | readMask | mask | readSwap | swap | debounce | sample | lookup | readRestore | restore | readUnmask | unmask =>
      rfl
  skip _ h _ := h

/-- Settles O27: a scan from its entry, by what holds along it. -/
theorem scanCompletes : Obligations.ScanCompletes := by
  unfold Obligations.ScanCompletes
  intro s c hi hr hc hq
  obtain ⟨t, hexec, hnone, hall⟩ := handler_returns (.inl ⟨hi, hr⟩) hc hq
  rw [scanDone_idle hi] at hall
  obtain ⟨n1, h1, hmode⟩ := hall _ (scanInvariant_restored c) (by simp [RestoredAt])
  obtain ⟨n2, h2, himr⟩ := hall _ (scanInvariant_unmasked c) (by simp [UnmaskedAt])
  obtain ⟨n3, -, hmodeHigh, -⟩ := hall _ (scanInvariant_modeHigh c _) ⟨rfl, by omega⟩
  obtain ⟨n4, -, himrHigh, -⟩ := hall _ (scanInvariant_maskHigh c _) ⟨rfl, by omega⟩
  obtain ⟨n5, h5, hev⟩ := hall _ (scanInvariant_delay c _ _) ⟨rfl, fun _ => rfl, by omega⟩
  refine ⟨t, hexec, hnone, ?_, himr h2, hmodeHigh, himrHigh, fun i hic hpr => ?_, handler_slot hexec,
    hev.after (by omega), handler_foregroundKept hexec⟩
  · have hcfg : t.cfg = s.cfg := handler_outside hexec State.cfg
    rw [hmode (by omega), hcfg]
  · obtain ⟨-, -, hkept⟩ := hall _ (scanInvariant_pending hic) hpr
    exact hkept

/-- Settles O31: what no scan touches by `handler_outside`, the rest by what holds along a scan. -/
theorem handlersTouchOnlyTheirCells : Obligations.HandlersTouchOnlyTheirCells := by
  unfold Obligations.HandlersTouchOnlyTheirCells
  intro s t c h
  have kept {α : Type} (f : State → α) : f t.outsideScan = f s.outsideScan := handler_outside h f
  refine ⟨kept (·.regs.clken), kept (·.regs.pull), kept (·.regs.odr), kept (·.regs.mux), kept (·.regs.rtsr),
    kept (·.regs.irqen), kept (·.regs.lmode), kept (·.regs.lodr), kept (·.highOut), fun hk => ?_, ?_,
    ⟨kept (·.lut), kept (·.lutInstalled)⟩, ⟨kept (·.kpdInit), kept (·.lcdInit)⟩, handler_foregroundKept h,
    ⟨kept (·.cfg), kept (·.refused), kept (·.faults), kept (·.keys), kept (·.bouncing), kept (·.lcdPowered),
      kept (·.port), kept (·.sched)⟩,
    kept (·.dev), kept (·.devBusy), kept (·.anyLatch), fun a => kept (fun v => memRead v.vram a), ?_⟩
  · have hstart : ModeHighAt (s.regs.mode.extractLsb' 16 16) (scanDone s) s := by
      refine ⟨rfl, fun hn => ?_⟩
      cases hp : s.isrpos with
      | none => rw [scanDone_idle hp] at hn; omega
      | some p => have := hk p hp; rw [scanDone_at hp] at hn; omega
    obtain ⟨n, hhigh, -⟩ := handler_invariant (scanInvariant_modeHigh c _) hstart h
    exact hhigh
  · obtain ⟨n, hhigh⟩ := handler_invariant (scanInvariant_pendingHigh c _) rfl h
    exact hhigh
  · obtain ⟨n, hlatch⟩ := handler_invariant (scanInvariant_latches c s.events) (fun _ hw => hw) h
    exact hlatch

end Sys2Proof.Machine
end

section
/-! PROOFS. The statements of 40_keypad: the mask over every step (R158). -/

namespace Sys2Proof.Machine

variable {s t u : State} {i : Instr} {P : Nat → State → Prop} {prog : List Micro}

/-! ### What no micro-step writes -/

/-- The state with every cell that some micro-step writes put out of sight: the configuration, the positions, the marks,
the environment and the edge detector's levels remain. -/
def State.outsideMicro (s : State) : State :=
  { State.resetWith s.cfg with
    fgpos := s.fgpos, isrpos := s.isrpos, refused := s.refused, faults := s.faults, lvl := s.lvl, keys := s.keys
    bouncing := s.bouncing, spoiled := s.spoiled, lcdPowered := s.lcdPowered, port := s.port, sched := s.sched
    quantum := s.quantum }

theorem deviceExec_outsideMicro (h : deviceExec i s = .next t) : t.outsideMicro = s.outsideMicro := by
  obtain ⟨_, _, _, rfl⟩ := deviceExec_deviceWrites h
  rfl

theorem busLine_outsideMicro {f : Word → Word} (h : busLine f s = .next t) : t.outsideMicro = s.outsideMicro := by
  rw [busLine_next h]
  rfl

theorem micro_outsideMicro {x : Ctx} {m : Micro} (h : micro x m s = .next t) : t.outsideMicro = s.outsideMicro := by
  cases m with
  | read r => rw [micro] at h; rw [microRead_next h]; cases x <;> rfl
  | sample => rw [micro] at h; rw [sampleRows_next h]; rfl
  | write r v => rw [micro] at h; rw [regUpdate_next h]; rfl
  | ack c => rw [micro] at h; rw [regWrite_next h]; rfl
  | record c => cases h; unfold recordKey; split <;> rfl
  | busRs _ | busRw _ | busD _ => rw [micro] at h; exact busLine_outsideMicro h
  | busE b =>
    obtain ⟨v, hv, rfl | ⟨-, -, hw⟩⟩ := busEnable_next h
    · exact busLine_outsideMicro hv
    · obtain ⟨j, -, hj⟩ := latchWord_next hw
      exact (deviceExec_outsideMicro hj).trans (busLine_outsideMicro hv)
  | clearSlot | readSlot | returnSlot | pollSlot | returnCharOfV | returnCharOf _ | setLut _ | setKpdInit | setLcdInit
  | settleDelay _ _ | debounce | lookup => cases h; rfl

/-! ### What holds along a command -/

/-- `P n` holds after `n` micro-steps of a command's program, each with its re-evaluation, if it does before them: it
does not speak of the foreground's position, of the turn's bound, or of a result left from before. -/
structure FgInvariant (prog : List Micro) (P : Nat → State → Prop) : Prop where
  fgpos : ∀ n s p, P n s → P n { s with fgpos := p }
  turnOver : ∀ n s, P n s → P n s.turnOver
  accept : ∀ s, P 0 s → P 0 { s with result := none }
  step : ∀ n m s t, prog[n]? = some m → P n s → micro .fg m s = .next t → P (n + 1) t.settle

/-- What is left of a program after `j` micro-steps, by its first. -/
theorem drop_eq_cons {j : Nat} {m : Micro} {rest : List Micro} (h : prog.drop j = m :: rest) :
    prog[j]? = some m ∧ prog.drop (j + 1) = rest := by
  constructor
  · rw [← Nat.add_zero j, ← List.getElem?_drop, h, List.getElem?_cons_zero]
  · rw [← List.tail_drop, h, List.tail_cons]

/-- A turn of the foreground ends where some of its micro-steps are done. -/
theorem runFg_invariant (h : FgInvariant prog P) {j k : Nat} {q : Option Nat} (hs : P j s)
    (hr : runFg i k (prog.drop j) q s = .next t) : ∃ n, P n t := by
  generalize hms : prog.drop j = ms at hr
  induction ms generalizing j k q s with
  | nil => cases hr; exact ⟨j, h.fgpos _ _ _ hs⟩
  | cons m rest ih =>
    obtain ⟨hm, hrest⟩ := drop_eq_cons hms
    simp only [runFg] at hr
    split at hr
    · split at hr
      · have hu := h.step _ _ _ _ hm (h.fgpos _ _ _ hs) ‹_›
        split at hr
        · cases hr; exact ⟨_, hu⟩
        · exact ih hu hrest hr
      · cases hr
      · cases hr
    · cases hr; exact ⟨j, h.fgpos _ _ _ hs⟩

/-- A command that answers a next state is not taken, is accepted, or goes on where it stands (R49, R274). -/
theorem hostCommand_cases {checks : State → Option Refusal} (h : hostCommand i checks prog s = .next t) :
    t = s.turnOver ∨
    (FgIdle s ∧ runFg i 1 prog s.quantum { s.turnOver with result := none } = .next t) ∨
    ∃ k, FgAt i k s ∧ runFg i k (prog.drop (k - 1)) s.quantum s.turnOver = .next t := by
  unfold hostCommand at h
  split at h
  · split at h
    · cases h
    · cases h; exact .inl rfl
  · rename_i hisr
    split at h
    · rename_i hfg
      split at h
      · cases h
      · exact .inr (.inl ⟨⟨hisr, hfg⟩, h⟩)
    · rename_i j k hfg
      split at h
      · rename_i hj
        subst hj
        exact .inr (.inr ⟨k, ⟨hisr, hfg⟩, h⟩)
      · cases h; exact .inl rfl

/-- How many micro-steps the operation at hand has done: none before it is accepted. -/
def commandDone (s : State) : Nat :=
  match s.fgpos with
  | .inOp _ k => k - 1
  | .idle => 0

theorem commandDone_idle (h : s.fgpos = .idle) : commandDone s = 0 := by simp [commandDone, h]

theorem commandDone_at {k : Nat} (h : s.fgpos = .inOp i k) : commandDone s = k - 1 := by simp [commandDone, h]

/-- A command keeps what its program keeps. -/
theorem command_invariant (hi : i.format = .hc) (h : FgInvariant (commandProgram i) P) (hs : P (commandDone s) s)
    (hr : exec i s = .next t) : ∃ n, P n t := by
  obtain ⟨checks, hcmd⟩ := exec_command hi hr
  rcases hostCommand_cases hcmd with rfl | ⟨hidle, hrun⟩ | ⟨k, hat, hrun⟩
  · exact ⟨_, h.turnOver _ _ hs⟩
  · rw [commandDone_idle hidle.2] at hs
    exact runFg_invariant (j := 0) h (h.accept _ (h.turnOver _ _ hs)) hrun
  · rw [commandDone_at hat.2] at hs
    exact runFg_invariant h (h.turnOver _ _ hs) hrun

/-- No command moves the handler. -/
theorem command_isrpos (hi : i.format = .hc) (h : exec i s = .next t) : t.isrpos = s.isrpos := by
  have hinv : FgInvariant (commandProgram i) (fun _ v => v.isrpos = s.isrpos) :=
    { fgpos := fun _ _ _ hv => hv
      turnOver := fun _ _ hv => hv
      accept := fun _ hv => hv
      step := fun n m a b _ ha hm =>
        have hk : b.outsideMicro.isrpos = a.outsideMicro.isrpos := by rw [micro_outsideMicro hm]
        hk.trans ha }
  exact (command_invariant hi hinv rfl h).elim fun _ h' => h'

/-- Under a running handler a command that is not refused is not taken (R274). -/
theorem command_under_handler {p : IsrPos} (hi : i.format = .hc) (hp : s.isrpos = some p)
    (h : exec i s = .next t) : t = s.turnOver := by
  obtain ⟨checks, hcmd⟩ := exec_command hi h
  rcases hostCommand_cases hcmd with rfl | ⟨hidle, -⟩ | ⟨k, hat, -⟩
  · rfl
  · exact absurd (hidle.1.symm.trans hp) (by simp)
  · exact absurd (hat.1.symm.trans hp) (by simp)

/-! ### What a step is made of -/

/-- `t` is what an instruction, an environment step or nothing makes of `s` with the turn's bound, the port and the
turns to come moved on. -/
def TurnOf (s t : State) : Prop := ∃ q p l,
  (∃ i, exec i { s with quantum := q, port := p, sched := l } = .next t) ∨
  (∃ e, envStep e { s with quantum := q, port := p, sched := l } = .next t) ∨
  t = { s with quantum := q, port := p, sched := l }

theorem exec_turnOf (h : exec i s = .next t) : TurnOf s t := ⟨s.quantum, s.port, s.sched, .inl ⟨i, h⟩⟩

theorem foreground_turnOf (h : foreground s = .next t) : TurnOf s t := by
  unfold foreground at h
  split at h
  · exact exec_turnOf h
  · split at h
    · exact ⟨s.quantum, _, s.sched, .inl ⟨_, h⟩⟩
    · cases h; exact ⟨none, s.port, s.sched, .inr (.inr rfl)⟩

theorem defaultTurn_turnOf (h : defaultTurn s = .next t) : TurnOf s t := by
  unfold defaultTurn at h
  split at h
  · exact exec_turnOf h
  · split at h
    · exact exec_turnOf h
    · exact foreground_turnOf h

theorem takeTurn_turnOf {v : Turn} (h : takeTurn v s = .next t) : TurnOf s t := by
  cases v with
  | go => exact defaultTurn_turnOf h
  | run n =>
    simp only [takeTurn, context] at h
    split at h
    · exact exec_turnOf (s := { s with quantum := some n }) h
    · exact foreground_turnOf (s := { s with quantum := some n }) h
  | enter c n => exact ⟨some n, s.port, s.sched, .inl ⟨_, h⟩⟩
  | env e => exact ⟨s.quantum, s.port, s.sched, .inr (.inl ⟨e, h⟩)⟩
  | command bytes => cases h; exact ⟨s.quantum, _, s.sched, .inr (.inr rfl)⟩
  | busWord w =>
    simp only [takeTurn, busRequest] at h
    split at h
    · exact exec_turnOf h
    · cases h

/-- A step that answers a next state is one turn. -/
theorem step_turnOf (h : step s = .next t) : TurnOf s t := by
  unfold step schedule at h
  split at h
  · rename_i o ho
    subst h
    unfold alreadyStopped at ho
    split at ho
    · cases ho
    · split at ho <;> cases ho
  · split at h
    · cases h
    · split at h
      · exact defaultTurn_turnOf h
      · rename_i v rest _
        exact takeTurn_turnOf (s := { s with sched := rest }) h

/-! ### The lines stay masked in a scan (R158) -/

/-- A handler's turn keeps it, by the mask along its scan. -/
theorem handler_scanMasks {c : Col} (hs : ScanMasksTheLines s) (h : exec (isrInstr c) s = .next t) :
    ScanMasksTheLines t := by
  have hend {n : Nat} (hm : MaskedAt n t) (hpos : t.isrpos = none ∨ t.isrpos = some { col := c, k := n + 1 }) :
      ScanMasksTheLines t := by
    intro p hp
    rcases hpos with hpos | hpos <;> rw [hpos] at hp <;> cases hp
    refine ⟨Nat.succ_pos n, fun ⟨h3, h13⟩ => ?_⟩
    dsimp only at h3 h13
    exact hm (by omega) (by omega)
  rcases exec_isrInstr_cases h with rfl | ⟨-, hrun⟩ | ⟨k, hi, hrun⟩
  · exact hs
  · obtain ⟨n, hm, -, hpos⟩ := runIsr_scan (j := 0) (scanInvariant_masked c) (by simp [MaskedAt]) hrun
    rw [Nat.sub_zero, Nat.add_comm] at hpos
    exact hend hm (hpos.imp_left And.left)
  · obtain ⟨hk, hmask⟩ := hs _ hi
    have hstart : MaskedAt (k - 1) s.turnOver := fun h2 h12 => hmask ⟨by dsimp only; omega, by dsimp only; omega⟩
    obtain ⟨n, hm, hle, hpos⟩ := runIsr_scan (scanInvariant_masked c) hstart hrun
    have hk' : 1 ≤ k := hk
    rw [show k + (n - (k - 1)) = n + 1 by omega] at hpos
    exact hend hm (hpos.imp_left And.left)

/-- It speaks of the handler's position and of `IMR` alone. -/
theorem scanMasks_congr (hs : ScanMasksTheLines s) (hp : t.isrpos = s.isrpos) (hi : t.regs.imr = s.regs.imr) :
    ScanMasksTheLines t := by
  intro p h
  rw [hi]
  exact hs p (hp ▸ h)

/-- Every instruction keeps it: a command takes no step under a handler, and a bus word writes no register. -/
theorem exec_scanMasks (hs : ScanMasksTheLines s) (h : exec i s = .next t) : ScanMasksTheLines t := by
  cases hf : i.format with
  | hc =>
    cases hp : s.isrpos with
    | none => exact fun p hp' => absurd ((command_isrpos hf h).symm.trans hp') (by simp [hp])
    | some p => rw [command_under_handler hf hp h]; exact hs
  | irq =>
    obtain ⟨c, rfl⟩ := isrInstr_of_format hf
    exact handler_scanMasks hs h
  | lb =>
    rw [exec_bus hf] at h
    have hk : t.outsideMicro.isrpos = s.outsideMicro.isrpos := by rw [deviceExec_outsideMicro h]
    exact scanMasks_congr hs hk (by rw [deviceExec_regs h])

theorem envStep_scanMasks {e : EnvStep} (hs : ScanMasksTheLines s) (h : envStep e s = .next t) :
    ScanMasksTheLines t := by
  cases e with
  | key _ _ _ | bounce _ => cases h; exact hs
  | reset => cases h; exact scanMasksTheLines_reset s.cfg
  | lcdPowered =>
    cases h
    unfold powerLcd
    split <;> exact hs
  | tableChanged =>
    simp only [envStep] at h
    split at h <;> cases h
    exact hs

/-- Settles O57: every turn keeps the mask, and a masked line does not request. -/
theorem linesStayMaskedInAScan : Obligations.LinesStayMaskedInAScan := by
  unfold Obligations.LinesStayMaskedInAScan
  refine ⟨fun s t hs h => ?_, fun s p hs hp hk => ?_⟩
  · obtain ⟨q, port, l, hx⟩ := step_turnOf h
    have hv : ScanMasksTheLines { s with quantum := q, port := port, sched := l } := hs
    rcases hx with ⟨i, hx⟩ | ⟨e, hx⟩ | rfl
    · exact exec_scanMasks hv hx
    · exact envStep_scanMasks hv hx
    · exact hs
  · have hbit : ∀ c : Col, s.regs.imr.getLsbD c.val = false := by
      intro c
      have := congrArg (fun v : BitVec 4 => v.getLsbD c.val) ((hs p hp).2 hk)
      simpa [BitVec.getLsbD_extractLsb'] using this
    exact ⟨hbit, fun c => by simp [req, hbit c]⟩

end Sys2Proof.Machine
end

section
/-! PROOFS. The statements of 40_keypad: nets, levels and the edge detector (R160 to R162). -/

namespace Sys2Proof.Machine

variable {s t : State} {keys : BitVec 16} {l : Line}

/-! ### The edge detector (R162) -/

/-- Where the four lines' bits are 0, so is each of them. -/
theorem lineBit_of_lines_zero {w : Word} (h : w.extractLsb' 0 4 = 0#4) (c : Col) : w.getLsbD c.val = false := by
  have := congrArg (fun w : BitVec 4 => w.getLsbD c.val) h
  simpa [BitVec.getLsbD_extractLsb'] using this

/-- The bit of a line that latches is set, and no other. -/
theorem settle_pr_line (s : State) (c : Col) :
    s.settle.regs.pr.getLsbD c.val = (s.regs.pr.getLsbD c.val || latches s.spoil c) := by
  rw [settle_regs_pr, BitVec.getLsbD_or, edges_getLsbD]

/-- Settles O16: the line's bit by `settle_pr_line`, its level by the definition. -/
theorem edgeDetectorLatchesRisingEdges : Obligations.EdgeDetectorLatchesRisingEdges := by
  unfold Obligations.EdgeDetectorLatchesRisingEdges
  intro s c
  refine ⟨?_, settle_lvl_get s c, fun h => if_pos h, fun h => if_neg (ne_true_of_eq_false h), settle_pr_kept s⟩
  have hl : latches s.spoil c = (s.regs.rtsr.getLsbD c.val && (s.regs.imr.getLsbD c.val || s.cfg.prLatchWhileMasked)
      && !s.lvl.get c && lineLevel s.spoil c) := rfl
  rw [settle_pr_line, hl]
  ac_rfl

/-- Where every line reads as it was seen, no edge rises. -/
theorem settle_pr_steady (h : ∀ c : Col, lineLevel s.spoil c = s.lvl.get c) : s.settle.regs.pr = s.regs.pr := by
  have hl : ∀ c, latches s.spoil c = false := by
    intro c
    have hc : lineLevel s.spoil c = s.spoil.lvl.get c := h c
    rw [latches, hc, Bool.and_assoc, Bool.not_and_self, Bool.and_false]
  rw [settle_regs_pr, edges, hl, hl, hl, hl]
  exact BitVec.or_zero

/-! ### Nets (R160) -/

theorem mem_allLines (l : Line) : l ∈ allLines := by
  revert l
  decide

theorem mem_growNet {m : List Line} {q : Line} :
    q ∈ growNet keys m ↔ q ∈ m ∨ ∃ p ∈ m, adjacent keys p q = true := by
  simp [growNet, mem_allLines]

/-- A net keeps what it has, -/
theorem mem_closeNet {m : List Line} {q : Line} (n : Nat) (h : q ∈ m) : q ∈ closeNet keys n m := by
  induction n generalizing m with
  | zero => exact h
  | succ n ih =>
    rw [closeNet]
    split
    · exact h
    · exact ih (mem_growNet.2 (.inl h))

/-- gains the lines of closed keys, -/
theorem mem_net_of_adjacent {q : Line} (h : adjacent keys l q = true) : q ∈ net keys l := by
  have hq : q ∈ growNet keys [l] := mem_growNet.2 (.inr ⟨l, List.mem_singleton.2 rfl, h⟩)
  rw [net, closeNet]
  split
  · rename_i heq
    rwa [heq] at hq
  · exact mem_closeNet _ hq

/-- and is a single line where no key of it is closed. -/
theorem net_alone (h : ∀ q, adjacent keys l q = false) : net keys l = [l] := by
  have hgrow : growNet keys [l] = [l] := by
    have hsame : growNet keys [l] = allLines.filter (fun q => q = l) := by
      simp [growNet, h, eq_comm]
    rw [hsame]
    clear h hsame
    revert l
    decide
  rw [net, closeNet, if_pos hgrow]

/-- Whether a net reaches what stands across its line: whether a key of the line is closed. -/
theorem net_any {f : Line → Bool} {held : Bool} (hl : f l = false) (hf : ∀ q, adjacent keys l q = true → f q = true)
    (hheld : held = true ↔ ∃ q, adjacent keys l q = true) : (net keys l).any f = held := by
  cases held with
  | true =>
    obtain ⟨q, hq⟩ := hheld.1 rfl
    exact List.any_eq_true.2 ⟨q, mem_net_of_adjacent hq, hf q hq⟩
  | false =>
    have hnone : ∀ q, adjacent keys l q = false := by
      intro q
      by_contra hq
      exact absurd (hheld.2 ⟨q, by simpa using hq⟩) (by decide)
    rw [net_alone hnone]
    simp [hl]

/-- A column's keys connect it to rows, -/
theorem adjacent_colLine (keys : BitVec 16) (c : Col) (q : Line) :
    adjacent keys (colLine c) q = true ↔ ∃ r, q = rowLine r ∧ keyClosed keys r c = true := by
  have hc := c.isLt
  simp only [adjacent, colLine, hc, Nat.not_le.2 hc, decide_true, decide_false, Bool.true_and, Bool.and_false,
    Bool.false_and, Bool.or_false, Bool.and_eq_true, decide_eq_true_eq]
  constructor
  · rintro ⟨h4, hk⟩
    exact ⟨⟨q.val - 4, by omega⟩, Fin.ext (Nat.add_sub_cancel' h4).symm, hk⟩
  · rintro ⟨r, rfl, hk⟩
    exact ⟨Nat.le_add_right 4 r.val, by simpa [rowLine, keyClosed] using hk⟩

/-- and a row's to columns. -/
theorem adjacent_rowLine (keys : BitVec 16) (r : Row) (q : Line) :
    adjacent keys (rowLine r) q = true ↔ ∃ c, q = colLine c ∧ keyClosed keys r c = true := by
  simp only [adjacent, rowLine, Nat.le_add_right, Nat.not_lt.2 (Nat.le_add_right 4 r.val), decide_true, decide_false,
    Bool.and_true, Bool.false_and, Bool.false_or, Bool.and_eq_true, decide_eq_true_eq, Nat.add_sub_cancel_left]
  constructor
  · rintro ⟨h4, hk⟩
    exact ⟨⟨q.val, h4⟩, rfl, hk⟩
  · rintro ⟨c, rfl, hk⟩
    exact ⟨c.isLt, hk⟩

theorem columnHeld_iff (keys : BitVec 16) (c : Col) : columnHeld keys c = true ↔ ∃ r, keyClosed keys r c = true := by
  simp [columnHeld, Fin.exists_fin_succ, or_assoc]

theorem rowHeld_iff (keys : BitVec 16) (r : Row) : rowHeld keys r = true ↔ ∃ c, keyClosed keys r c = true := by
  simp [rowHeld, Fin.exists_fin_succ, or_assoc]

/-! ### The port's directions -/

/-- `outputs` sets the low bit of each of its lines' fields. -/
theorem keypadOutputs_getLsbD (g : Config) (ls : List Line) (j : Nat) :
    (outputs g ls).getLsbD j = (decide (j < 16) && ls.any (fun l => decide (j = 2 * (pinOf g l).val))) := by
  have hfold : ∀ (m : BitVec 16), (ls.foldl (fun m l => m ||| maskBit 16 true (2 * (pinOf g l).val)) m).getLsbD j
      = (m.getLsbD j || decide (j < 16) && ls.any (fun l => decide (j = 2 * (pinOf g l).val))) := by
    induction ls with
    | nil => simp
    | cons l rest ih =>
      intro m
      rw [List.foldl_cons, ih, BitVec.getLsbD_or, maskBit_getLsbD, List.any_cons]
      cases h : decide (j < 16) <;> simp [Bool.or_assoc]
  rw [outputs, hfold]
  simp

/-- The keypad's pins whose lines are driven at 1, the others pulled down, with no contact bouncing and no pin spoiled:
the port of R161, in either direction. -/
structure Drives (ls : List Line) (s : State) : Prop where
  wired : s.cfg.Wired
  mode : s.regs.mode.extractLsb' 0 16 = outputs s.cfg ls
  pull : s.regs.pull.extractLsb' 0 16 = 0xAAAA#16
  odr : s.regs.odr.extractLsb' 0 8 = 0xFF#8
  still : s.bouncing = false
  sound : s.spoiled = 0

/-- A keypad pin's field stands in the word's low half. -/
theorem pinField_low (w : Word) (p : Pin) : pinField w p.val = (w.extractLsb' 0 16).extractLsb' (2 * p.val) 2 := by
  apply BitVec.eq_of_getLsbD_eq
  intro j hj
  have h16 : 2 * p.val + j < 16 := by omega
  simp [pinField_getLsbD, h16]

/-- The field of a line's pin under `outputs`. -/
theorem pinField_keypadOutputs {g : Config} (hw : g.keypadPins.toList.Nodup) {ls : List Line} {w : Word}
    (h : w.extractLsb' 0 16 = outputs g ls) (l : Line) :
    pinField w (pinOf g l).val = if l ∈ ls then modeOutput else modeInput := by
  have h8 := (pinOf g l).isLt
  have hmem : ls.any (fun k => decide (2 * (pinOf g l).val = 2 * (pinOf g k).val)) = decide (l ∈ ls) := by
    rw [Bool.eq_iff_iff, List.any_eq_true, decide_eq_true_eq]
    constructor
    · rintro ⟨k, hk, hp⟩
      rw [pinOf_inj hw (k := l) (l := k) (by simpa using hp)]
      exact hk
    · exact fun hl => ⟨l, hl, by simp⟩
  have hodd : ls.any (fun k => decide (2 * (pinOf g l).val + 1 = 2 * (pinOf g k).val)) = false := by
    rw [List.any_eq_false]
    intro k _
    rw [decide_eq_true_eq]
    omega
  rw [pinField_low, h]
  apply BitVec.eq_of_getLsbD_eq
  intro j hj
  rw [BitVec.getLsbD_extractLsb', keypadOutputs_getLsbD]
  interval_cases j
  · rw [Nat.add_zero, hmem, decide_eq_true (show 2 * (pinOf g l).val < 16 by omega)]
    by_cases hl : l ∈ ls <;> simp [hl, modeOutput, modeInput]
  · rw [hodd]
    split <;> simp [modeOutput, modeInput]

/-- No pin under `outputs` has a reserved mode (R38). -/
theorem reservedPins_keypadOutputs {g : Config} {ls : List Line} {w : Word} (h : w.extractLsb' 0 16 = outputs g ls) :
    reservedPins w = 0#8 := by
  have hodd : ∀ p < 8, w.getLsbD (2 * p + 1) = false := by
    intro p hp
    have h16 : 2 * p + 1 < 16 := by omega
    have hbit : (w.extractLsb' 0 16).getLsbD (2 * p + 1) = w.getLsbD (2 * p + 1) := by simp [h16]
    rw [← hbit, h, keypadOutputs_getLsbD, Bool.and_eq_false_imp]
    intro _
    rw [List.any_eq_false]
    intro k _
    rw [decide_eq_true_eq]
    omega
  rw [reservedPins, hodd 0 (by omega), hodd 1 (by omega), hodd 2 (by omega), hodd 3 (by omega), hodd 4 (by omega),
    hodd 5 (by omega), hodd 6 (by omega), hodd 7 (by omega)]
  rfl

/-- In a port with no reserved mode a re-evaluation spoils no pin. -/
theorem spoil_of_sound (h : reservedPins s.regs.mode = 0#8) : s.spoil = s := by
  rw [State.spoil, h, BitVec.or_zero]

namespace Drives

variable {ls : List Line}

theorem spoil (h : Drives ls s) : s.spoil = s := spoil_of_sound (reservedPins_keypadOutputs h.mode)

theorem odr_pin (h : Drives ls s) (l : Line) : s.regs.odr.getLsbD (pinOf s.cfg l).val = true := by
  have hp := (pinOf s.cfg l).isLt
  have hbit : (s.regs.odr.extractLsb' 0 8).getLsbD (pinOf s.cfg l).val = s.regs.odr.getLsbD (pinOf s.cfg l).val := by
    simp
  rw [← hbit, h.odr]
  generalize pinOf s.cfg l = p
  revert p
  decide

theorem pull_pin (h : Drives ls s) (l : Line) : pinField s.regs.pull (pinOf s.cfg l).val = pullDown := by
  rw [pinField_low, h.pull]
  generalize pinOf s.cfg l = p
  revert p
  decide

theorem mode_pin (h : Drives ls s) (l : Line) :
    pinField s.regs.mode (pinOf s.cfg l).val = if l ∈ ls then modeOutput else modeInput :=
  pinField_keypadOutputs h.wired.1 h.mode l

/-- Its lines drive 1, and no line drives 0. -/
theorem drives (h : Drives ls s) (b : Bool) (q : Line) : Machine.drives s b q = (b && decide (q ∈ ls)) := by
  rw [Machine.drives, h.mode_pin, h.odr_pin]
  by_cases hq : q ∈ ls <;> cases b <;> simp [hq, modeOutput, modeInput]

/-- A driven line reads 1. -/
theorem level_driven (h : Drives ls s) (hl : l ∈ ls) : level s l = true := by
  simp [level, h.sound, h.mode_pin, hl, h.odr_pin]

/-- Any other reads 1 where its net holds a driven one. -/
theorem level_input (h : Drives ls s) (hl : l ∉ ls) : level s l = (net s.keys l).any (fun q => q ∈ ls) := by
  have hne : modeInput ≠ modeOutput := by decide
  have htrue : Machine.drives s true = fun q => decide (q ∈ ls) := funext fun q => h.drives true q
  have hfalse : Machine.drives s false = fun _ => false := funext fun q => h.drives false q
  have hlevel : level s l = inputLevel s l := by simp [level, h.sound, h.mode_pin, hl, hne, h.still]
  rw [hlevel, inputLevel, htrue, hfalse, h.pull_pin]
  cases (net s.keys l).any fun q => decide (q ∈ ls) <;> simp

/-- With the rows driven a column reads whether a key of it is closed, -/
theorem level_column (h : Drives [4, 5, 6, 7] s) (c : Col) : level s (colLine c) = columnHeld s.keys c := by
  have hcol : ∀ c : Col, colLine c ∉ [4, 5, 6, 7] := by decide
  have hrow : ∀ r : Row, rowLine r ∈ [4, 5, 6, 7] := by decide
  rw [h.level_input (hcol c)]
  apply net_any
  · simp only [hcol c, decide_false]
  · intro q hq
    obtain ⟨r, rfl, -⟩ := (adjacent_colLine ..).1 hq
    simp only [hrow r, decide_true]
  · simp [columnHeld_iff, adjacent_colLine]

/-- and with the columns driven a row reads whether a key of it is. -/
theorem level_row (h : Drives [0, 1, 2, 3] s) (r : Row) : level s (rowLine r) = rowHeld s.keys r := by
  have hcol : ∀ c : Col, colLine c ∈ [0, 1, 2, 3] := by decide
  have hrow : ∀ r : Row, rowLine r ∉ [0, 1, 2, 3] := by decide
  rw [h.level_input (hrow r)]
  apply net_any
  · simp only [hrow r, decide_false]
  · intro q hq
    obtain ⟨c, rfl, -⟩ := (adjacent_rowLine ..).1 hq
    simp only [hcol c, decide_true]
  · simp [rowHeld_iff, adjacent_rowLine]

end Drives

/-- Settles O17: the two directions are `Drives` of the rows and of the columns. -/
theorem heldKeysSetTheLevels : Obligations.HeldKeysSetTheLevels := by
  unfold Obligations.HeldKeysSetTheLevels
  refine ⟨fun s hw hb hs hp ho => ⟨fun hm => ?_, fun hm => ?_⟩, by decide⟩
  · exact Drives.level_column ⟨hw, hm, hp, ho, hb, hs⟩
  · exact Drives.level_row ⟨hw, hm, hp, ho, hb, hs⟩

/-! ### The armed port at rest -/

theorem Quiet.drives (h : Quiet s) : Drives [4, 5, 6, 7] s :=
  ⟨h.wired, h.armed.mode, h.armed.pull, h.armed.odr, h.calm.still, h.calm.sound⟩

/-- A routed line of the armed port reads whether a key of its column is closed. -/
theorem lineLevel_column (h : Drives [4, 5, 6, 7] s) {c : Col} (hc : routed s.cfg.layout s.regs.mux c = true) :
    lineLevel s c = columnHeld s.keys c := by
  rw [lineLevel, if_pos hc, h.level_column]

/-- A re-evaluation of the quiet port finds it as it is: nothing is drawn, and no line rises. -/
theorem quiet_settle (h : Quiet s) : Quiet s.settle := by
  have hlevel : ∀ c, lineLevel s.spoil c = columnHeld s.keys c := by
    intro c
    rw [h.drives.spoil, lineLevel_column h.drives (h.armed.mux c)]
  have hpr : s.settle.regs.pr = s.regs.pr := settle_pr_steady fun c => (hlevel c).trans (h.calm.seen c).symm
  have hidle : requesting s.settle = requesting s := by simp only [requesting, req, hpr, settle_regs_imr,
    settle_regs_irqen, settle_cfg]
  have hspoiled : s.settle.spoiled = 0 := congrArg State.spoiled h.drives.spoil |>.trans h.calm.sound
  refine ⟨h.wired, { h.armed with }, ⟨h.calm.still, hspoiled, fun c => ?_⟩, hidle.trans h.idle⟩
  rw [settle_lvl_get, hlevel]
  rfl

end Sys2Proof.Machine
end

section
/-! PROOFS. The statements of 40_keypad: a held key is recorded once (R156, R165, R168). -/

namespace Sys2Proof.Machine

variable {s t v : State} {c : Col} {n : Nat}

/-! ### The port's levels along a scan -/

/-- After `n` micro-steps of a scan its ports' columns are driven, from S2 to S6, or else the rows are (R152, R154). -/
abbrev Swapped (n : Nat) : Prop := 4 ≤ n ∧ n < 10

/-- The lines driven. -/
def scanDrives (n : Nat) : List Line := if Swapped n then [0, 1, 2, 3] else [4, 5, 6, 7]

/-- The level that line `d` is seen at: a driven column is at 1. -/
def seenInScan (keys : BitVec 16) (n : Nat) (d : Col) : Bool := if Swapped n then true else columnHeld keys d

theorem recordKey_drives {ls : List Line} (h : Drives ls s) (c : Col) : Drives ls (recordKey c s) := by
  unfold recordKey
  split <;> exact { h with }

/-- S2 and S6 turn the directions round, and nothing else does. -/
theorem drives_scanStep (h : Drives (scanDrives n) s) (hst : ScanStep c n s t) : Drives (scanDrives (n + 1)) t := by
  cases hst with
  | swap => exact { h with mode := setLow16_low _ _ }
  | restore => exact { h with mode := setLow16_low _ _ }
  | record => exact recordKey_drives h c
  | readMask | mask | readSwap | debounce | sample | lookup | readRestore | ack | readUnmask | unmask =>
    exact { h with }

theorem drives_settle {ls : List Line} (h : Drives ls s) : Drives ls s.settle :=
  { h with sound := (congrArg State.spoiled h.spoil).trans h.sound }

/-- What the edge detector sees of a routed line in either direction. -/
theorem lineLevel_inScan (h : Drives (scanDrives n) s) {d : Col} (hd : routed s.cfg.layout s.regs.mux d = true) :
    lineLevel s.spoil d = seenInScan s.keys n d := by
  rw [h.spoil, lineLevel, if_pos hd, seenInScan]
  by_cases hn : Swapped n
  · rw [scanDrives, if_pos hn] at h
    have hcol : ∀ d : Col, colLine d ∈ [0, 1, 2, 3] := by decide
    rw [if_pos hn, h.level_driven (hcol d)]
  · rw [scanDrives, if_neg hn] at h
    rw [if_neg hn, h.level_column]

/-- The sample of the swapped port has each row that holds a closed key (R155, R161). -/
theorem rowSample_swapped (h : Drives [0, 1, 2, 3] s) : rowSample s.cfg (pinLevels s) = rowsHeld s.keys := by
  simp only [rowSample, sampleBit, pinLevels_getLsbD h.wired.1, h.level_row, rowsHeld]
  rfl

/-- A re-evaluation at which a masked line rises latches nothing where P19 is false. -/
theorem settle_pr_masked (hi : s.regs.imr.extractLsb' 0 4 = 0#4) (hp : s.cfg.prLatchWhileMasked = false) :
    s.settle.regs.pr = s.regs.pr := by
  have hmask : ∀ d : Col, (s.spoil.regs.rtsr.getLsbD d.val &&
      (s.spoil.regs.imr.getLsbD d.val || s.spoil.cfg.prLatchWhileMasked)) = false := by
    intro d
    have hd : (s.spoil.regs.imr.getLsbD d.val || s.spoil.cfg.prLatchWhileMasked) = false := by
      show (s.regs.imr.getLsbD d.val || s.cfg.prLatchWhileMasked) = false
      rw [lineBit_of_lines_zero hi, hp]
      rfl
    rw [hd, Bool.and_false]
  rw [settle_regs_pr, edges_of_masked hmask]
  exact BitVec.or_zero

/-! ### A scan of the calm port -/

/-- A scan of line `c` after `n` micro-steps, from the armed and calm port `v`: the directions, the mask, the levels
seen, the pending bits and the record. -/
structure CalmScan (v : State) (c : Col) (n : Nat) (t : State) : Prop where
  outside : t.outsideScan = v.outsideScan
  drives : Drives (scanDrives n) t
  masked : MaskedAt n t
  unmasked : UnmaskedAt n t
  seen : ∀ d, t.lvl.get d = seenInScan v.keys n d
  pending : t.regs.pr = if n ≤ 10 then v.regs.pr else v.regs.pr &&& ~~~(maskBit 32 true c.val)
  record : RecordsAt v.cfg c (rowsHeld v.keys) v.slot n t

theorem scanStep_lvl (hst : ScanStep c n s t) : t.lvl = s.lvl := by
  cases hst with
  | record => unfold recordKey; split <;> rfl
  | readMask | mask | readSwap | swap | debounce | sample | lookup | readRestore | restore | ack | readUnmask
  | unmask => rfl

/-- S7 clears the line's own bit, and no other micro-step writes `PR` (R156). -/
theorem scanStep_pending {p : Word} (h : s.regs.pr = if n ≤ 10 then p else p &&& ~~~(maskBit 32 true c.val))
    (hst : ScanStep c n s t) :
    t.regs.pr = if n + 1 ≤ 10 then p else p &&& ~~~(maskBit 32 true c.val) := by
  cases hst with
  | ack => exact congrArg (· &&& ~~~(maskBit 32 true c.val)) h
  | record => rw [recordKey_regs]; exact h
  | readMask | mask | readSwap | swap | debounce | sample | lookup | readRestore | restore | readUnmask | unmask =>
    exact h

/-- No micro-step of the scan raises an edge that latches: while the directions change the lines are masked, and before
and after that a line reads as it was seen (R168). -/
theorem CalmScan.settle_pr (h : CalmScan v c n s) (hst : ScanStep c n s t) (hm : MaskedAt (n + 1) t)
    (hlevel : ∀ d, lineLevel t.spoil d = seenInScan v.keys (n + 1) d) (hp : t.cfg.prLatchWhileMasked = false) :
    t.settle.regs.pr = t.regs.pr := by
  by_cases hn : 2 ≤ n + 1 ∧ n + 1 ≤ 12
  · exact settle_pr_masked (hm hn.1 hn.2) hp
  · apply settle_pr_steady
    intro d
    have hsame : Swapped n ↔ Swapped (n + 1) := by
      simp only [Swapped]
      omega
    rw [hlevel, scanStep_lvl hst, h.seen, seenInScan, seenInScan]
    simp only [hsame]

theorem scanInvariant_calm (ha : PortArmed v) (hp : v.cfg.prLatchWhileMasked = false) :
    ScanInvariant c (CalmScan v c) where
  isrpos _ _ _ h := { h with drives := { h.drives with }, record := { h.record with } }
  turnOver _ _ h := { h with drives := { h.drives with }, record := { h.record with } }
  step n s t h hst := by
    have hout := (scanInvariant_outside c v.outsideScan).step n s t h.outside hst
    have kept {α : Type} (f : State → α) : f t.outsideScan = f v.outsideScan := congrArg f hout
    have hdrives := drives_scanStep h.drives hst
    have hmasked : MaskedAt (n + 1) t := (scanInvariant_masked c).step n s t h.masked hst
    have hmux : t.regs.mux = v.regs.mux := kept (·.regs.mux)
    have hcfg : t.cfg = v.cfg := kept (·.cfg)
    have hkeys : t.keys = v.keys := kept (·.keys)
    have hlevel : ∀ d, lineLevel t.spoil d = seenInScan v.keys (n + 1) d := by
      intro d
      rw [lineLevel_inScan hdrives (by rw [hcfg, hmux]; exact ha.mux d), hkeys]
    refine ⟨hout, drives_settle hdrives, hmasked, (scanInvariant_unmasked c).step n s t h.unmasked hst, fun d => ?_, ?_,
      h.record.step hst fun h5 => ?_⟩
    · rw [settle_lvl_get, hlevel]
    · rw [h.settle_pr hst hmasked hlevel (by rw [hcfg, hp]), scanStep_pending h.pending hst]
    · subst h5
      have hkeys' : s.keys = v.keys := (congrArg State.keys h.outside :)
      rw [← hkeys']
      exact rowSample_swapped h.drives
  skip s h hno := ⟨h.outside, h.drives, fun _ _ => h.masked (by omega) (by omega), by simp [UnmaskedAt], h.seen,
    h.pending, h.record.skip hno⟩

/-- Settles O29: what holds along the scan of the calm port, at its end. -/
theorem heldKeyIsRecordedOnce : Obligations.HeldKeyIsRecordedOnce := by
  unfold Obligations.HeldKeyIsRecordedOnce
  intro s c hw ha hcalm hp hi hr hq
  have hc : clocked s .mode = true := ha.clock
  obtain ⟨t, hexec, hnone, hall⟩ := handler_returns (.inl ⟨hi, hr⟩) hc hq
  rw [scanDone_idle hi] at hall
  have hstart : CalmScan s c 0 s :=
    { outside := rfl
      drives := ⟨hw, ha.mode, ha.pull, ha.odr, hcalm.still, hcalm.sound⟩
      masked := by simp [MaskedAt]
      unmasked := by simp [UnmaskedAt]
      seen := hcalm.seen
      pending := rfl
      record := ⟨rfl, by omega, by omega, fun _ => rfl, by omega⟩ }
  obtain ⟨n, h13, h⟩ := hall _ (scanInvariant_calm ha hp) hstart
  have kept {α : Type} (f : State → α) : f t.outsideScan = f s.outsideScan := congrArg f h.outside
  have hcfg : t.cfg = s.cfg := kept (·.cfg)
  have hmux : t.regs.mux = s.regs.mux := kept (·.regs.mux)
  have hclken : t.regs.clken = s.regs.clken := kept (·.regs.clken)
  have hrtsr : t.regs.rtsr = s.regs.rtsr := kept (·.regs.rtsr)
  have hirqen : t.regs.irqen = s.regs.irqen := kept (·.regs.irqen)
  have hkeys : t.keys = s.keys := kept (·.keys)
  have hidle : ¬ Swapped n := fun hn => by omega
  have hdrives : Drives [4, 5, 6, 7] t := by
    have := h.drives
    rwa [scanDrives, if_neg hidle] at this
  refine ⟨t, hexec, hnone, ?_, ⟨hdrives.still, hdrives.sound, fun d => ?_⟩, h.record.after (by omega), ?_⟩
  · exact
      { clock := by rw [hcfg, hclken]; exact ha.clock
        mode := hdrives.mode
        pull := hdrives.pull
        odr := hdrives.odr
        mux := fun d => by rw [hcfg, hmux]; exact ha.mux d
        rtsr := by rw [hrtsr]; exact ha.rtsr
        imr := h.unmasked h13
        irqen := fun d => by rw [hcfg, hirqen]; exact ha.irqen d }
  · rw [h.seen, seenInScan, if_neg hidle, hkeys]
  · rw [h.pending, if_neg (by omega)]

end Sys2Proof.Machine
end

section
/-! PROOFS. The statements of 40_keypad: the commands but `KPD_INIT` (R131 to R136, R146, R147). -/

namespace Sys2Proof.Machine

variable {s t : State} {i : Instr} {m : Micro} {n k : Nat} {q : Option Nat}

/-! ### The micro-steps of the commands but `KPD_INIT` -/

/-- A micro-step of the foreground that writes the slot, the table, the local `v` or the result and nothing else. -/
def Micro.isCell : Micro → Bool
  | .clearSlot | .readSlot | .returnSlot | .pollSlot | .returnCharOfV | .returnCharOf _ | .setLut _ => true
  | .read _ | .write _ _ | .setKpdInit | .setLcdInit | .busE _ | .busRs _ | .busRw _ | .busD _ | .settleDelay _ _
  | .debounce | .sample | .lookup | .record _ | .ack _ => false

/-- The state with those cells, and the foreground's position, put out of sight. -/
def State.outsideCells (s : State) : State :=
  { s with slot := 0, lut := Vector.replicate 17 0, lutInstalled := false, fgpos := .idle, fgV := 0, result := none }

theorem micro_outsideCells (hm : m.isCell = true) (h : micro .fg m s = .next t) : t.outsideCells = s.outsideCells := by
  cases m with
  | clearSlot | readSlot | returnSlot | pollSlot | returnCharOfV | returnCharOf _ | setLut _ => cases h; rfl
  | _ => cases hm

/-! ### Turns that are not pre-empted (R273, R275) -/

theorem quiet_outsideCells : Quiet s.outsideCells ↔ Quiet s :=
  ⟨fun h => ⟨h.wired, { h.armed with }, { h.calm with }, h.idle⟩,
    fun h => ⟨h.wired, { h.armed with }, { h.calm with }, h.idle⟩⟩

/-- The cells do not pre-empt. -/
theorem RunsFor.congr (h : RunsFor n s) (ht : t.outsideCells = s.outsideCells) : RunsFor n t := by
  have hq : t.quantum = s.quantum := (congrArg State.quantum ht :)
  rcases h with ⟨l, hl, hn⟩ | ⟨hnone, hu | hquiet⟩
  · exact .inl ⟨l, hq.trans hl, hn⟩
  · have hu' : Undelivered s.outsideCells := hu
    rw [← ht] at hu'
    exact .inr ⟨hq.trans hnone, .inl hu'⟩
  · have hquiet' := quiet_outsideCells.2 hquiet
    rw [← ht] at hquiet'
    exact .inr ⟨hq.trans hnone, .inr (quiet_outsideCells.1 hquiet')⟩

/-- After one micro-step that is over, a turn covers one less. -/
theorem RunsFor.settle (h : RunsFor (n + 1) { s with quantum := q }) : RunsFor n { s.settle with quantum := spend q } := by
  rcases h with ⟨l, hl, hn⟩ | ⟨hnone, hu | hquiet⟩
  · cases hl
    exact .inl ⟨l - 1, rfl, by omega⟩
  · cases hnone
    exact .inr ⟨rfl, .inl hu⟩
  · cases hnone
    have hs : Quiet s := ⟨hquiet.wired, { hquiet.armed with }, { hquiet.calm with }, hquiet.idle⟩
    have := quiet_settle hs
    exact .inr ⟨rfl, .inr ⟨this.wired, { this.armed with }, { this.calm with }, this.idle⟩⟩

/-- `v` has the slot, the table, the local `v` and the result of `t`. -/
structure CellsAs (v t : State) : Prop where
  slot : v.slot = t.slot
  lut : v.lut = t.lut
  fgV : v.fgV = t.fgV
  result : v.result = t.result

/-- One micro-step of a cell in a turn that is not pre-empted, and no poll to be repeated: the operation goes on with
the cells that it leaves. -/
theorem runFg_cell {ms : List Micro} (h : RunsFor (n + 1) { s with quantum := q }) (hm : m.isCell = true)
    (hx : micro .fg m { s with fgpos := .inOp i k } = .next t) (hp : pollAgain m t = false) :
    ∃ v, runFg i k (m :: ms) q s = runFg i (k + 1) ms (spend q) v ∧ RunsFor n { v with quantum := spend q } ∧
      CellsAs v t := by
  have hmay : mayRun q s = true := h.mayRun
  have hq : ({ t with quantum := q } : State).outsideCells = ({ s with quantum := q } : State).outsideCells :=
    congrArg (fun v : State => ({ v with quantum := q } : State)) (micro_outsideCells hm hx)
  exact ⟨t.settle, runFg_cons hmay hx hp, (h.congr hq).settle, rfl, rfl, rfl, rfl⟩

/-! ### One micro-step (R131, R132, R146, R147) -/

theorem kpdReady_initialized {op : Byte} (h : s.kpdInit = true) : kpdReady op s = none := by
  simp [kpdReady, h]

/-- A command of one micro-step leaves what that makes, settled, with the foreground idle as it was. -/
theorem hostCommand_single {checks : State → Option Refusal} (h : FgIdle s) (hc : checks s = none)
    (hq : mayRun s.quantum s = true) (hm : m ≠ .pollSlot) (ht : t.fgpos = .idle)
    (hx : micro .fg m { s.turnOver with result := none, fgpos := .inOp i 1 } = .next { t with fgpos := .inOp i 1 }) :
    hostCommand i checks [m] s = .next t.settle := by
  have hmay : mayRun s.quantum { s.turnOver with result := none } = true := hq
  rw [hostCommand_accepted h hc, runFg_cons hmay hx (by simp [pollAgain, hm]), runFg_done, ← ht]
  rfl

/-- Settles O20: each command is one micro-step. -/
theorem oneMicroStepCommands : Obligations.OneMicroStepCommands := by
  unfold Obligations.OneMicroStepCommands
  intro s hidle hk hq
  refine ⟨?_, ?_, fun key => ?_, fun table => ?_⟩ <;>
    exact hostCommand_single hidle (kpdReady_initialized hk) hq (by simp) hidle.2 rfl

/-! ### Characters and waits (R133 to R136) -/

/-- An accepted command's turn covers what the host's did. -/
theorem RunsFor.accepted (h : RunsFor n s) :
    RunsFor n { ({ s.turnOver with result := none } : State) with quantum := s.quantum } := h.congr rfl

/-- Settles O21: G1 and X1. -/
theorem getCharReturnsTheSlotsCharacter : Obligations.GetCharReturnsTheSlotsCharacter := by
  unfold Obligations.GetCharReturnsTheSlotsCharacter
  intro s hidle hk hruns
  obtain ⟨v, h1, hruns1, hv⟩ := runFg_cell (i := .kpdGetChar) (k := 1) (ms := [.returnCharOfV]) hruns.accepted
    (m := .readSlot) rfl rfl rfl
  obtain ⟨w, h2, -, hw⟩ := runFg_cell (i := .kpdGetChar) (k := 2) (ms := []) hruns1 (m := .returnCharOfV) rfl rfl rfl
  have hexec : exec .kpdGetChar s = .next { w with fgpos := .idle } :=
    (hostCommand_accepted hidle (kpdReady_initialized hk)).trans (h1.trans (h2.trans (runFg_done ..)))
  have hlut : v.lut = s.lut := hv.lut
  have hkey : v.fgV = s.slot := hv.fgV
  have hresult : w.result = some (toChar s.lut (keyOfByte s.slot)) := by
    rw [← hlut, ← hkey]
    exact hw.result
  refine ⟨_, hexec, hresult, fun h0 => ?_, hw.slot.trans hv.slot, hw.lut.trans hlut, rfl⟩
  rw [hresult, h0, toChar_outside s.lut (.inl (by decide))]

/-- The three waits begin with W1 and W2 (R133, R134, R136). -/
theorem exec_wait (h : i ∈ [Instr.kpdWait, .kpdGetWait, .kpdGetCharWait]) : ∃ rest, ∀ s,
    exec i s = hostCommand i (kpdReady i.opcode) (.clearSlot :: .pollSlot :: rest) s := by
  simp only [List.mem_cons, List.not_mem_nil, or_false] at h
  rcases h with rfl | rfl | rfl
  · exact ⟨[], fun _ => rfl⟩
  · exact ⟨[.returnSlot], fun _ => rfl⟩
  · exact ⟨[.readSlot, .returnCharOfV], fun _ => rfl⟩

/-- Settles O22: W1 empties the slot, so that W2 reads 0. -/
theorem waitsClearTheSlotAndPoll : Obligations.WaitsClearTheSlotAndPoll := by
  unfold Obligations.WaitsClearTheSlotAndPoll
  intro s hidle hk hruns i hi
  obtain ⟨rest, hexec⟩ := exec_wait hi
  obtain ⟨v, h1, hruns1, hv⟩ := runFg_cell (i := i) (k := 1) (ms := .pollSlot :: rest) hruns.accepted
    (m := .clearSlot) rfl rfl rfl
  have hrun := (hostCommand_accepted hidle (kpdReady_initialized (op := i.opcode) hk)).trans
    (h1.trans (runFg_poll hruns1.mayRun hv.slot))
  exact ⟨_, (hexec s).trans hrun, hv.slot, rfl, hv.result⟩

/-- A poll that reads a key goes on, with the key in `v`. -/
theorem runFg_key {ms : List Micro} (h : RunsFor (n + 1) s) (h0 : s.slot ≠ 0) :
    ∃ v, runFg i k (.pollSlot :: ms) s.quantum s.turnOver = runFg i (k + 1) ms (spend s.quantum) v ∧
      RunsFor n { v with quantum := spend s.quantum } ∧ CellsAs v { s with fgV := s.slot } := by
  obtain ⟨v, h1, hruns, hv⟩ := runFg_cell (s := s.turnOver) (i := i) (k := k) (ms := ms) h (m := .pollSlot) rfl rfl
    (by simpa [pollAgain] using h0)
  exact ⟨v, h1, hruns, hv.slot, hv.lut, hv.fgV, hv.result⟩

/-- Settles O23: a poll that reads 0 stands; one that reads a key goes on to G1 and X1. -/
theorem waitsReturnARecordedKey : Obligations.WaitsReturnARecordedKey := by
  unfold Obligations.WaitsReturnARecordedKey
  intro s hk
  refine ⟨fun i hi hat h0 hq => ?_, fun hat h0 hruns => ?_, fun hat h0 hruns => ?_, fun hat h0 hruns => ?_⟩
  · obtain ⟨rest, hexec⟩ := exec_wait hi
    have hmay : mayRun s.quantum s.turnOver = true := hq
    exact ⟨_, (hexec s).trans ((hostCommand_resumed hat).trans (runFg_poll hmay h0)), rfl, h0⟩
  · obtain ⟨v, h1, -, hv⟩ := runFg_key (i := .kpdWait) (k := 2) (ms := []) hruns h0
    exact ⟨_, (hostCommand_resumed hat).trans (h1.trans (runFg_done ..)), rfl, hv.slot, hv.result⟩
  · obtain ⟨v, h1, hruns1, hv⟩ := runFg_key (i := .kpdGetWait) (k := 2) (ms := [.returnSlot]) hruns h0
    obtain ⟨w, h2, -, hw⟩ := runFg_cell (i := .kpdGetWait) (k := 3) (ms := []) hruns1 (m := .returnSlot) rfl rfl rfl
    refine ⟨_, (hostCommand_resumed hat).trans (h1.trans (h2.trans (runFg_done ..))), rfl, hw.slot.trans hv.slot, ?_⟩
    exact hw.result.trans (congrArg some hv.slot)
  · obtain ⟨v, h1, hruns1, hv⟩ := runFg_key (i := .kpdGetCharWait) (k := 2) (ms := [.readSlot, .returnCharOfV])
      hruns h0
    obtain ⟨w, h2, hruns2, hw⟩ := runFg_cell (i := .kpdGetCharWait) (k := 3) (ms := [.returnCharOfV]) hruns1
      (m := .readSlot) rfl rfl rfl
    obtain ⟨u, h3, -, hu⟩ := runFg_cell (i := .kpdGetCharWait) (k := 4) (ms := []) hruns2 (m := .returnCharOfV)
      rfl rfl rfl
    have hlut : w.lut = s.lut := hw.lut.trans hv.lut
    have hkey : w.fgV = s.slot := hw.fgV.trans hv.slot
    refine ⟨_, (hostCommand_resumed hat).trans (h1.trans (h2.trans (h3.trans (runFg_done ..)))), rfl,
      hu.slot.trans (hw.slot.trans hv.slot), ?_⟩
    rw [← hlut, ← hkey]
    exact hu.result

end Sys2Proof.Machine
end

section
/-! PROOFS. The statements of 40_keypad: the frame of the keypad's commands (R130 to R133, R146, R147), and `KPD_INIT`
(R130). -/

namespace Sys2Proof.Machine

variable {s t v : State} {i : Instr} {m : Micro} {n j : Nat} {r : Role} {u : Upd} {prog : List Micro}

/-! ### Pending bits along a command (R45, R162) -/

/-- A micro-step that is no write of `PR` leaves the pending bits. -/
theorem micro_pr_kept {x : Ctx} (h : micro x m s = .next t) (hm : m.isWrite = true → m.role ≠ some .pr) :
    t.regs.pr = s.regs.pr := by
  rcases micro_regs h with hr | ⟨hw, q, w, hq, hr⟩
  · rw [hr]
  · rw [hr]
    have hne : q ≠ .pr := fun h' => hm hw (h' ▸ hq)
    exact storeRole_get_of_ne (q := .pr) (fun h' => hne ((portRole_eq_pr_iff ..).1 h')) w _

theorem pendingKept.trans (h : pendingKept s t) (h' : pendingKept t v) : pendingKept s v := by
  obtain ⟨hlow, hhigh⟩ := h
  obtain ⟨hlow', hhigh'⟩ := h'
  refine ⟨?_, hhigh'.trans hhigh⟩
  calc s.regs.pr &&& v.regs.pr = s.regs.pr &&& t.regs.pr &&& v.regs.pr := by rw [hlow]
    _ = s.regs.pr &&& (t.regs.pr &&& v.regs.pr) := BitVec.and_assoc ..
    _ = s.regs.pr := by rw [hlow', hlow]

/-- A program that does not write `PR` loses no pending bit and gains none above the four lines. -/
theorem fgInvariant_pending (s : State) (hp : ∀ m ∈ prog, m.isWrite = true → m.role ≠ some .pr) :
    FgInvariant prog (fun _ t => pendingKept s t) where
  fgpos _ _ _ h := h
  turnOver _ _ h := h
  accept _ h := h
  step n m a b hm ha hab := by
    have hpr := micro_pr_kept hab (hp m (List.mem_of_getElem? hm))
    refine ha.trans (pendingKept.trans ⟨?_, ?_⟩ (settle_pr_kept b))
    · rw [hpr, BitVec.and_self]
    · rw [hpr]

theorem pendingKept_refl (s : State) : pendingKept s s := ⟨BitVec.and_self, rfl⟩

/-! ### The commands but `KPD_INIT` -/

/-- They write cells alone. -/
theorem commandProgram_isCell (h7 : i.opcode.getLsbD 7 = false) (hk : i ≠ .kpdInit) :
    ∀ m ∈ commandProgram i, m.isCell = true := by
  cases i with
  | kpdInit => exact absurd rfl hk
  | kpdClear | kpdGet | kpdWait | kpdGetWait | kpdGetChar | kpdGetCharWait => decide
  | kpdToChar _ | kpdSetCharLut _ => exact fun m hm => List.mem_singleton.1 hm ▸ rfl
  | lcdInit | lcdClear | lcdHome | lcdCursorSet _ _ | lcdCursorShow | lcdCursorHide | lcdPrint _ | lcdWriteInstr _
  | lcdWriteData _ => simp [Instr.opcode] at h7
  | _ => exact fun m hm => absurd hm List.not_mem_nil

/-- The state with the edge detector's cells and the turn's bound put out of sight. -/
def State.outsideDetector (s : State) : State :=
  { s with
    regs := { s.regs with pr := 0 }
    lvl := { c0 := false, c1 := false, c2 := false, c3 := false }
    spoiled := 0, draws := 0, quantum := none }

theorem fgInvariant_cells (hp : ∀ m ∈ prog, m.isCell = true) (v : State) :
    FgInvariant prog (fun _ t => t.outsideCells.outsideDetector = v) where
  fgpos _ _ _ h := h
  turnOver _ _ h := h
  accept _ h := h
  step n m a b hm ha hab := by
    have hcells := micro_outsideCells (hp m (List.mem_of_getElem? hm)) hab
    exact (congrArg State.outsideDetector hcells).trans ha

/-- `KPD_SET_CHAR_LUT` alone has L1, and the clear and the waits alone C1 or W1. -/
theorem commandProgram_cells (h7 : i.opcode.getLsbD 7 = false) (hk : i ≠ .kpdInit) :
    (∀ table, .setLut table ∈ commandProgram i → i = .kpdSetCharLut table) ∧
    (.clearSlot ∈ commandProgram i → i ∈ [Instr.kpdClear, .kpdWait, .kpdGetWait, .kpdGetCharWait]) := by
  have hcell := commandProgram_isCell h7 hk
  constructor
  · intro table hm
    rcases commandProgram_writesCell hm rfl with h | ⟨table', h, hi⟩ | h <;> cases h
    exact hi
  · intro hm
    cases i with
    | kpdInit => exact absurd rfl hk
    | kpdClear | kpdWait | kpdGetWait | kpdGetCharWait => simp
    | kpdGet | kpdGetChar => exact absurd hm (by decide)
    | kpdToChar _ | kpdSetCharLut _ => cases List.mem_singleton.1 hm
    | lcdInit | lcdClear | lcdHome | lcdCursorSet _ _ | lcdCursorShow | lcdCursorHide | lcdPrint _ | lcdWriteInstr _
    | lcdWriteData _ => simp [Instr.opcode] at h7
    | _ => cases hm

/-- A program of cells without L1 leaves the table. -/
theorem fgInvariant_table (hp : ∀ m ∈ prog, m.isCell = true) (hl : ∀ table, .setLut table ∉ prog) (s : State) :
    FgInvariant prog (fun _ t => tableKept s t) where
  fgpos _ _ _ h := h
  turnOver _ _ h := h
  accept _ h := h
  step n m a b hm ha hab := by
    have hmem := List.mem_of_getElem? hm
    have hcell := hp m hmem
    cases m with
    | setLut table => exact absurd hmem (hl table)
    | clearSlot | readSlot | returnSlot | pollSlot | returnCharOfV | returnCharOf _ => cases hab; exact ha
    | _ => cases hcell

/-- A program of cells without C1 or W1 leaves the slot. -/
theorem fgInvariant_slot (hp : ∀ m ∈ prog, m.isCell = true) (hc : .clearSlot ∉ prog) (k : Byte) :
    FgInvariant prog (fun _ t => t.slot = k) where
  fgpos _ _ _ h := h
  turnOver _ _ h := h
  accept _ h := h
  step n m a b hm ha hab := by
    have hmem := List.mem_of_getElem? hm
    rcases micro_slot hab with hk | ⟨rfl, -⟩ | ⟨c, r, rfl, -⟩
    · exact hk.trans ha
    · exact absurd hmem hc
    · cases hp _ hmem

/-! ### `KPD_INIT` (R130) -/

/-- K1 to K8: the register and the update of each (R83). -/
def initUpdates : List (Role × Upd) :=
  [(.clken, .clkKeypad), (.mode, .modeIdle), (.pull, .pullAll), (.odr, .odrHigh), (.mux, .muxRoute),
   (.rtsr, .linesOn), (.imr, .linesOn), (.irqen, .irqOn)]

/-- What micro-step `n + 1` of `KPD_INIT` does, before the re-evaluation that ends it: step K`j + 1` is two, a read and
a write of its register, and K9 and K10 are one each. -/
inductive InitStep : Nat → State → State → Prop
  | read (j : Nat) (r : Role) (u : Upd) (s : State) : initUpdates[j]? = some (r, u) →
      InitStep (2 * j) s { s with fgT := s.regs.get r }
  | write (j : Nat) (r : Role) (u : Upd) (s : State) : initUpdates[j]? = some (r, u) →
      InitStep (2 * j + 1) s { s with regs := s.regs.set r (u.apply s.cfg s.fgT) }
  | clearSlot (s : State) : InitStep 16 s { s with slot := 0 }
  | setKpdInit (s : State) : InitStep 17 s { s with kpdInit := true }

/-- `kpdInitProgram` by what its micro-steps do. -/
theorem initStep_of_micro (hm : kpdInitProgram[n]? = some m) (h : micro .fg m s = .next t) : InitStep n s t := by
  match n with
  | 0 => cases hm; cases h; exact .read 0 .clken _ s rfl
  | 1 => cases hm; rw [micro_write_next h (by decide)]; exact .write 0 .clken _ s rfl
  | 2 => cases hm; rw [microRead_next h]; exact .read 1 .mode _ s rfl
  | 3 => cases hm; rw [micro_write_next h (by decide)]; exact .write 1 .mode _ s rfl
  | 4 => cases hm; rw [microRead_next h]; exact .read 2 .pull _ s rfl
  | 5 => cases hm; rw [micro_write_next h (by decide)]; exact .write 2 .pull _ s rfl
  | 6 => cases hm; rw [microRead_next h]; exact .read 3 .odr _ s rfl
  | 7 => cases hm; rw [micro_write_next h (by decide)]; exact .write 3 .odr _ s rfl
  | 8 => cases hm; rw [microRead_next h]; exact .read 4 .mux _ s rfl
  | 9 => cases hm; rw [micro_write_next h (by decide)]; exact .write 4 .mux _ s rfl
  | 10 => cases hm; cases h; exact .read 5 .rtsr _ s rfl
  | 11 => cases hm; rw [micro_write_next h (by decide)]; exact .write 5 .rtsr _ s rfl
  | 12 => cases hm; cases h; exact .read 6 .imr _ s rfl
  | 13 => cases hm; rw [micro_write_next h (by decide)]; exact .write 6 .imr _ s rfl
  | 14 => cases hm; cases h; exact .read 7 .irqen _ s rfl
  | 15 => cases hm; rw [micro_write_next h (by decide)]; exact .write 7 .irqen _ s rfl
  | 16 => cases hm; cases h; exact .clearSlot s
  | 17 => cases hm; cases h; exact .setKpdInit s
  | n + 18 => cases hm

/-- Each register stands in the table once; `PR` and the LCD's own do not. -/
theorem initUpdates_role (h : initUpdates[j]? = some (r, u)) : j < 8 ∧ r ≠ .pr ∧ r ≠ .idr ∧ r ≠ .lmode ∧ r ≠ .lodr := by
  have hj : j < 8 := (List.getElem?_eq_some_iff.1 h).1
  have hall : ∀ p ∈ initUpdates, p.1 ≠ .pr ∧ p.1 ≠ .idr ∧ p.1 ≠ .lmode ∧ p.1 ≠ .lodr := by decide
  exact ⟨hj, hall _ (List.mem_of_getElem? h)⟩

theorem initUpdates_inj {k : Nat} {u' : Upd} (h : initUpdates[j]? = some (r, u)) (h' : initUpdates[k]? = some (r, u')) :
    j = k := by
  have hnodup : (initUpdates.map Prod.fst).Nodup := by decide
  have hj : (initUpdates.map Prod.fst)[j]? = some r := by rw [List.getElem?_map, h]; rfl
  have hk : (initUpdates.map Prod.fst)[k]? = some r := by rw [List.getElem?_map, h']; rfl
  exact (List.getElem?_inj (List.getElem?_eq_some_iff.1 hj).1 hnodup).1 (hj.trans hk.symm)

/-- A re-evaluation writes no register but `PR`. -/
theorem settle_get (h : r ≠ .pr) (s : State) : s.settle.regs.get r = s.regs.get r := by
  cases r with
  | pr => exact absurd rfl h
  | _ => rfl

/-- A micro-step of `KPD_INIT` as step K`j + 1` sees it: its read, its write, or another's. -/
theorem initStep_role (hj : initUpdates[j]? = some (r, u)) (h : InitStep n s t) :
    (n = 2 * j ∧ t.regs.get r = s.regs.get r ∧ t.fgT = s.regs.get r) ∨
    (n = 2 * j + 1 ∧ t.regs.get r = u.apply s.cfg s.fgT) ∨
    (n ≠ 2 * j ∧ n ≠ 2 * j + 1 ∧ t.regs.get r = s.regs.get r) := by
  obtain ⟨hlt, -, hidr, -⟩ := initUpdates_role hj
  cases h with
  | read k r' u' _ hk =>
    by_cases hjk : k = j
    · subst hjk
      cases hj.symm.trans hk
      exact .inl ⟨rfl, rfl, rfl⟩
    · exact .inr (.inr ⟨by omega, by omega, rfl⟩)
  | write k r' u' _ hk =>
    by_cases hjk : k = j
    · subst hjk
      cases hj.symm.trans hk
      exact .inr (.inl ⟨rfl, Regs.get_set _ hidr _⟩)
    · have hne : r ≠ r' := fun h' => hjk (initUpdates_inj hk (h' ▸ hj))
      exact .inr (.inr ⟨by omega, by omega, Regs.get_set_of_ne _ hne _⟩)
  | clearSlot | setKpdInit => exact .inr (.inr ⟨by omega, by omega, rfl⟩)

/-- The state with the cells that `KPD_INIT` writes put out of sight: the keypad's registers, the slot, `kpd_init`, the
foreground's position and locals, the edge detector's cells, the turn's bound and the stamp. -/
def State.outsideInit (s : State) : State :=
  { s with
    regs := { Regs.reset s.cfg with lmode := s.regs.lmode, lodr := s.regs.lodr }
    slot := 0, kpdInit := false, fgpos := .idle, fgT := 0, result := none
    lvl := { c0 := false, c1 := false, c2 := false, c3 := false }
    spoiled := 0, draws := 0, quantum := none }

theorem fgInvariant_outsideInit (v : State) : FgInvariant kpdInitProgram (fun _ t => t.outsideInit = v) where
  fgpos _ _ _ h := h
  turnOver _ _ h := h
  accept _ h := h
  step n m a b hm ha hab := by
    cases initStep_of_micro hm hab with
    | write j r u _ hj =>
      obtain ⟨-, -, -, hlmode, hlodr⟩ := initUpdates_role hj
      rw [← ha]
      cases r with
      | lmode => exact absurd rfl hlmode
      | lodr => exact absurd rfl hlodr
      | _ => rfl
    | read _ _ _ _ _ | clearSlot | setKpdInit => exact ha

/-- The bits `f` of step K`j + 1`'s register, which its update keeps: `v`, in the register and, between read and
write, in the local `t`. -/
def WrittenBack {α : Type} (f : Word → α) (r : Role) (j : Nat) (v : α) (n : Nat) (t : State) : Prop :=
  f (t.regs.get r) = v ∧ (n = 2 * j + 1 → f t.fgT = v)

theorem fgInvariant_writtenBack {α : Type} {f : Word → α} (v : α) (hj : initUpdates[j]? = some (r, u))
    (hf : ∀ g w, f (u.apply g w) = f w) : FgInvariant kpdInitProgram (WrittenBack f r j v) where
  fgpos _ _ _ h := h
  turnOver _ _ h := h
  accept _ h := h
  step n m a b hm ha hab := by
    obtain ⟨hreg, ht⟩ := ha
    have hpr := (initUpdates_role hj).2.1
    rcases initStep_role hj (initStep_of_micro hm hab) with ⟨rfl, hr, hlocal⟩ | ⟨rfl, hr⟩ | ⟨hn, hn', hr⟩
    · refine ⟨by rw [settle_get hpr, hr, hreg], fun _ => ?_⟩
      rw [settle_fgT, hlocal, hreg]
    · refine ⟨?_, by omega⟩
      rw [settle_get hpr, hr, hf, ht rfl]
    · exact ⟨by rw [settle_get hpr, hr, hreg], by omega⟩

theorem kpdInitProgram_pr : ∀ m ∈ kpdInitProgram, m.isWrite = true → m.role ≠ some .pr := by decide

theorem lowByte_getLsbD (i : Nat) : (0xFF : Word).getLsbD i = decide (i < 8) := by
  by_cases h : i < 32
  · have : ∀ j : Fin 32, (0xFF : Word).getLsbD j.val = decide (j.val < 8) := by decide
    exact this ⟨i, h⟩
  · rw [BitVec.getLsbD_of_ge _ i (by omega), decide_eq_false (by omega)]

/-- K4 sets `ODR[7:0]`, -/
theorem odrHigh_low (g : Config) (w : Word) : (Upd.odrHigh.apply g w).extractLsb' 0 8 = 0xFF#8 := by
  have hall : ∀ i : Fin 8, (0xFF#8).getLsbD i.val = true := by decide
  apply BitVec.eq_of_getLsbD_eq
  intro i hi
  simp only [Upd.apply, BitVec.getLsbD_extractLsb', BitVec.getLsbD_or, lowByte_getLsbD, hall ⟨i, hi⟩]
  simp [hi]

/-- and keeps the other bits. -/
theorem odrHigh_high (g : Config) (w : Word) : (Upd.odrHigh.apply g w).extractLsb' 8 24 = w.extractLsb' 8 24 := by
  apply BitVec.eq_of_getLsbD_eq
  intro i hi
  simp only [Upd.apply, BitVec.getLsbD_extractLsb', BitVec.getLsbD_or, lowByte_getLsbD]
  simp

/-! ### The frames -/

/-- The frame of the commands but `KPD_INIT`: what holds along programs of cells. -/
theorem cellCommand_frame (hi : i.format = .hc) (h7 : i.opcode.getLsbD 7 = false) (hk : i ≠ .kpdInit)
    (h : exec i s = .next t) :
    regsKept s t ∧ pendingKept s t ∧ displayKept s t ∧ handlerKept s t ∧ flagsKept s t ∧ worldKept s t := by
  have hcell := commandProgram_isCell h7 hk
  have hnowrite : ∀ m ∈ commandProgram i, m.isWrite = true → m.role ≠ some .pr := by
    intro m hm hw
    have := hcell m hm
    cases m <;> cases hw <;> cases this
  obtain ⟨-, hpending⟩ := command_invariant hi (fgInvariant_pending s hnowrite) (pendingKept_refl s) h
  obtain ⟨-, hout⟩ := command_invariant hi (fgInvariant_cells hcell s.outsideCells.outsideDetector) rfl h
  have kept {α : Type} (f : State → α) : f t.outsideCells.outsideDetector = f s.outsideCells.outsideDetector :=
    congrArg f hout
  exact ⟨kept (·.regs), hpending,
    ⟨kept (·.highOut), kept (·.dev), kept (·.devBusy), kept (·.anyLatch), kept (·.events),
      fun a => kept (fun v => memRead v.vram a)⟩,
    ⟨kept (·.isrpos), kept (·.isrT), kept (·.isrS), kept (·.isrR)⟩, ⟨kept (·.kpdInit), kept (·.lcdInit)⟩,
    ⟨kept (·.cfg), kept (·.refused), kept (·.faults), kept (·.keys), kept (·.bouncing), kept (·.lcdPowered),
      kept (·.port), kept (·.sched)⟩⟩

/-- The frame of `KPD_INIT`: what holds along its program, wherever it goes on. -/
theorem kpdInit_frame (h : exec .kpdInit s = .next t) :
    displayKept s t ∧ tableKept s t ∧ handlerKept s t ∧ worldKept s t ∧ t.lcdInit = s.lcdInit ∧ pendingKept s t ∧
      t.regs.lmode = s.regs.lmode ∧ t.regs.lodr = s.regs.lodr := by
  obtain ⟨-, hpending⟩ := command_invariant (i := .kpdInit) rfl (fgInvariant_pending s kpdInitProgram_pr)
    (pendingKept_refl s) h
  obtain ⟨-, hout⟩ := command_invariant (i := .kpdInit) rfl (fgInvariant_outsideInit s.outsideInit) rfl h
  have kept {α : Type} (f : State → α) : f t.outsideInit = f s.outsideInit := congrArg f hout
  exact ⟨⟨kept (·.highOut), kept (·.dev), kept (·.devBusy), kept (·.anyLatch), kept (·.events),
      fun a => kept (fun v => memRead v.vram a)⟩,
    ⟨kept (·.lut), kept (·.lutInstalled)⟩, ⟨kept (·.isrpos), kept (·.isrT), kept (·.isrS), kept (·.isrR)⟩,
    ⟨kept (·.cfg), kept (·.refused), kept (·.faults), kept (·.keys), kept (·.bouncing), kept (·.lcdPowered),
      kept (·.port), kept (·.sched)⟩,
    kept (·.lcdInit), hpending, kept (·.regs.lmode), kept (·.regs.lodr)⟩

/-- Bits that its update keeps are written back, unless the operation goes on here at that write (R47). -/
theorem kpdInit_writesBack {α : Type} {f : Word → α} (hj : initUpdates[j]? = some (r, u))
    (hf : ∀ g w, f (u.apply g w) = f w) (hne : s.fgpos ≠ .inOp .kpdInit (2 * j + 2)) (h : exec .kpdInit s = .next t) :
    f (t.regs.get r) = f (s.regs.get r) := by
  have hinv := fgInvariant_writtenBack (f (s.regs.get r)) hj hf
  have hstart {n : Nat} (hn : n ≠ 2 * j + 1) : WrittenBack f r j (f (s.regs.get r)) n s := ⟨rfl, fun h => absurd h hn⟩
  obtain ⟨checks, hcmd⟩ := exec_command rfl h
  rcases hostCommand_cases hcmd with rfl | ⟨-, hrun⟩ | ⟨k, hat, hrun⟩
  · rfl
  · obtain ⟨n, hreg, -⟩ := runFg_invariant (prog := kpdInitProgram) (j := 0) hinv
      (hinv.accept _ (hinv.turnOver _ _ (hstart (by omega)))) hrun
    exact hreg
  · have hk : k ≠ 2 * j + 2 := fun h' => hne (h' ▸ hat.2)
    obtain ⟨n, hreg, -⟩ := runFg_invariant hinv (hinv.turnOver _ _ (hstart (by omega))) hrun
    exact hreg

/-- Settles O32: the two frames, and the slot and the table by the programs that write them. -/
theorem keypadCommandFrames : Obligations.KeypadCommandFrames := by
  unfold Obligations.KeypadCommandFrames
  refine ⟨fun s t i hi h7 hk h => ?_, fun s t h => ?_⟩
  · have hcell := commandProgram_isCell h7 hk
    obtain ⟨hlut, hclear⟩ := commandProgram_cells h7 hk
    obtain ⟨hregs, hpending, hdisplay, hhandler, hflags, hworld⟩ := cellCommand_frame hi h7 hk h
    refine ⟨hregs, hpending, hdisplay, hhandler, hflags, hworld, fun hno => ?_, fun _ => command_slot hi h,
      fun hno => ?_⟩
    · obtain ⟨-, htable⟩ := command_invariant hi
        (fgInvariant_table hcell (fun table hm => hno table (hlut table hm)) s) ⟨rfl, rfl⟩ h
      exact htable
    · obtain ⟨-, hslot⟩ := command_invariant hi (fgInvariant_slot hcell (fun hm => hno (hclear hm)) s.slot) rfl h
      exact hslot
  · obtain ⟨hdisplay, htable, hhandler, hworld, hlcd, hpending, hlmode, hlodr⟩ := kpdInit_frame h
    refine ⟨hdisplay, htable, hhandler, hworld, hlcd, hpending, command_slot rfl h, hlmode, hlodr, fun hne => ?_,
      fun hne => ?_⟩
    · exact kpdInit_writesBack (j := 1) (r := .mode) (f := fun w => w.extractLsb' 16 16) rfl
        (fun g w => setLow16_high w _) hne h
    · exact kpdInit_writesBack (j := 3) (r := .odr) (f := fun w => w.extractLsb' 8 24) rfl
        (fun g w => odrHigh_high g w) hne h

end Sys2Proof.Machine
end

section
/-! PROOFS. The statements of 40_keypad: `KPD_INIT` arms the port (R130). -/

namespace Sys2Proof.Machine

variable {s t v : State} {i : Instr} {m : Micro} {n j : Nat} {r : Role} {u : Upd} {prog : List Micro}
  {P : Nat → State → Prop}

/-! ### A program that is not pre-empted (R273, R275) -/

/-- The turn is not pre-empted before the end of a program that has done `j` micro-steps and along which `P` holds: it
is bounded and long enough, or no state along the program requests service. -/
def CoversRest (prog : List Micro) (P : Nat → State → Prop) (j : Nat) (q : Option Nat) : Prop :=
  (∃ l, q = some l ∧ prog.length ≤ j + l) ∨ (q = none ∧ ∀ n t, P n t → requesting t = false)

theorem CoversRest.mayRun {q : Option Nat} (h : CoversRest prog P j q) (hj : j < prog.length) (hs : P j s) :
    mayRun q s = true := by
  rcases h with ⟨l, rfl, hl⟩ | ⟨rfl, hnone⟩
  · rw [show l = (l - 1) + 1 by omega, mayRun_bounded]
  · rw [Machine.mayRun, hnone _ _ hs]
    rfl

theorem CoversRest.spend {q : Option Nat} (h : CoversRest prog P j q) (hj : j < prog.length) :
    CoversRest prog P (j + 1) (spend q) := by
  rcases h with ⟨l, rfl, hl⟩ | ⟨rfl, hnone⟩
  · exact .inl ⟨l - 1, rfl, by omega⟩
  · exact .inr ⟨rfl, hnone⟩

/-- A program without a poll, each of whose micro-steps goes on, completes in a turn that covers it. -/
theorem runFg_completes (h : FgInvariant prog P)
    (hgo : ∀ n m s, prog[n]? = some m → P n s → ∃ t, micro .fg m s = .next t) (hpoll : .pollSlot ∉ prog) {k : Nat}
    {q : Option Nat} (hj : j ≤ prog.length) (hs : P j s) (hq : CoversRest prog P j q) :
    ∃ t, runFg i k (prog.drop j) q s = .next t ∧ t.fgpos = .idle ∧ P prog.length t := by
  generalize hms : prog.drop j = ms
  induction ms generalizing j k q s with
  | nil =>
    have hend : j = prog.length := Nat.le_antisymm hj (List.drop_eq_nil_iff.1 hms)
    exact ⟨_, runFg_done .., rfl, h.fgpos _ _ _ (hend ▸ hs)⟩
  | cons m rest ih =>
    obtain ⟨hm, hrest⟩ := drop_eq_cons hms
    have hlt : j < prog.length := (List.getElem?_eq_some_iff.1 hm).1
    have hs' := h.fgpos _ _ (.inOp i k) hs
    obtain ⟨u, hu⟩ := hgo _ _ _ hm hs'
    have hne : m ≠ .pollSlot := fun h' => hpoll (h' ▸ List.mem_of_getElem? hm)
    rw [runFg_cons (hq.mayRun hlt hs) hu (by simp [pollAgain, hne])]
    exact ih hlt (h.step _ _ _ _ hm hs' hu) (hq.spend hlt) hrest

/-! ### What `KPD_INIT` has written -/

/-- After `n` micro-steps: a register is as it was (`w`) until step K`j + 1` writes its update, which is read in the
micro-step before. -/
structure UpdatedAt (g : Config) (w : Word) (j : Nat) (r : Role) (u : Upd) (n : Nat) (t : State) : Prop where
  before : n ≤ 2 * j + 1 → t.regs.get r = w
  between : n = 2 * j + 1 → t.fgT = w
  after : 2 * j + 2 ≤ n → t.regs.get r = u.apply g w

theorem updatedAt_initStep {w : Word} (hj : initUpdates[j]? = some (r, u)) (h : UpdatedAt s.cfg w j r u n s)
    (hst : InitStep n s t) : UpdatedAt s.cfg w j r u (n + 1) t := by
  rcases initStep_role hj hst with ⟨rfl, hr, hlocal⟩ | ⟨rfl, hr⟩ | ⟨hn, hn', hr⟩
  · have hw := h.before (by omega)
    exact ⟨fun _ => hr.trans hw, fun _ => hlocal.trans hw, by omega⟩
  · exact ⟨by omega, by omega, fun _ => by rw [hr, h.between rfl]⟩
  · exact ⟨fun hb => hr.trans (h.before (by omega)), by omega, fun ha => hr.trans (h.after (by omega))⟩

/-- What micro-steps of `KPD_INIT` leave. -/
theorem initStep_kept (h : InitStep n s t) :
    t.cfg = s.cfg ∧ t.keys = s.keys ∧ t.bouncing = s.bouncing ∧ t.spoiled = s.spoiled ∧ t.lvl = s.lvl ∧
      t.result = s.result ∧ t.regs.pr = s.regs.pr := by
  cases h with
  | write j r u _ hj =>
    have hne : Role.pr ≠ r := (initUpdates_role hj).2.1.symm
    exact ⟨rfl, rfl, rfl, rfl, rfl, rfl, Regs.get_set_of_ne _ hne _⟩
  | read _ _ _ _ _ | clearSlot | setKpdInit => exact ⟨rfl, rfl, rfl, rfl, rfl, rfl, rfl⟩

/-- `KPD_INIT` accepted in `s`, after `n` micro-steps. -/
structure InitAt (s : State) (n : Nat) (t : State) : Prop where
  cfg : t.cfg = s.cfg
  updated : ∀ j r u, initUpdates[j]? = some (r, u) → UpdatedAt s.cfg (s.regs.get r) j r u n t
  slot : 17 ≤ n → t.slot = 0
  flag : 18 ≤ n → t.kpdInit = true
  result : t.result = none

namespace InitAt

theorem start (s : State) : InitAt s 0 { s.turnOver with result := none } :=
  ⟨rfl, fun _ _ _ _ => ⟨fun _ => rfl, by omega, by omega⟩, by omega, by omega, rfl⟩

theorem initStep (h : InitAt s n t) (hst : InitStep n t v) : InitAt s (n + 1) v := by
  obtain ⟨hcfg, -, -, -, -, hresult, -⟩ := initStep_kept hst
  refine ⟨hcfg.trans h.cfg, fun j r u hj => ?_, fun hn => ?_, fun hn => ?_, hresult.trans h.result⟩
  · rw [← h.cfg]
    exact updatedAt_initStep hj (h.cfg ▸ h.updated j r u hj) hst
  · cases hst with
    | clearSlot => rfl
    | setKpdInit => exact h.slot (by omega)
    | read _ _ _ _ hj | write _ _ _ _ hj => have := (initUpdates_role hj).1; omega
  · cases hst with
    | setKpdInit => rfl
    | clearSlot => omega
    | read _ _ _ _ hj | write _ _ _ _ hj => have := (initUpdates_role hj).1; omega

theorem settle (h : InitAt s n t) : InitAt s n t.settle := by
  refine { h with updated := fun j r u hj => ?_ }
  have hr : t.settle.regs.get r = t.regs.get r := settle_get (initUpdates_role hj).2.1 t
  obtain ⟨hbefore, hbetween, hafter⟩ := h.updated j r u hj
  exact ⟨fun hn => hr.trans (hbefore hn), hbetween, fun hn => hr.trans (hafter hn)⟩

/-- After step K`j + 1` its register holds the update. -/
theorem get (h : InitAt s n t) (hj : initUpdates[j]? = some (r, u)) (hn : 2 * j + 2 ≤ n) :
    t.regs.get r = u.apply s.cfg (s.regs.get r) := (h.updated j r u hj).after hn

end InitAt

theorem fgInvariant_init (s : State) : FgInvariant kpdInitProgram (InitAt s) where
  fgpos _ _ _ h := { h with updated := fun j r u hj => { h.updated j r u hj with } }
  turnOver _ _ h := { h with updated := fun j r u hj => { h.updated j r u hj with } }
  accept _ h := { h with updated := fun j r u hj => { h.updated j r u hj with }, result := rfl }
  step _ _ _ _ hm h hx := (h.initStep (initStep_of_micro hm hx)).settle

/-! ### The clocks (R37, R130) -/

/-- K1's bits clock every register that the other steps write. -/
theorem clocked_of_clkKeypad {w : Word} (h : t.regs.clken = Upd.clkKeypad.apply t.cfg w) (hr : r ∈ armingRoles) :
    clocked t r = true := by
  have hall : ∀ r ∈ armingRoles, clocked t r = true := by
    simp [armingRoles, clocked, h, Upd.apply, maskBit_getLsbD]
  exact hall r hr

/-- No micro-step of `KPD_INIT` is stopped: K1's own register is not gated, and K1 clocks the others. -/
theorem kpdInit_goes_on (hm : kpdInitProgram[n]? = some m) (h : InitAt s n t) : ∃ v, micro .fg m t = .next v := by
  match n with
  | 0 => cases hm; exact ⟨_, rfl⟩
  | 1 => cases hm; exact micro_goes_on .fg (by simp [Micro.role, Micro.isWrite, clocked])
  | n + 2 =>
    have hclken : t.regs.clken = Upd.clkKeypad.apply t.cfg s.regs.clken := by
      rw [h.cfg]
      exact h.get (j := 0) (r := .clken) rfl (by omega)
    have hmem : m ∈ armingProgram ++ [.setKpdInit] := List.mem_of_getElem? (i := n) hm
    rcases List.mem_append.1 hmem with ha | ha
    · obtain ⟨-, hrole⟩ := armingProgram_runsOn m ha
      refine micro_goes_on .fg fun r hr => ?_
      obtain ⟨hin, hlodr, hw⟩ := hrole r hr
      exact ⟨clocked_of_clkKeypad hclken hin, hlodr, fun h' => (hw h').1⟩
    · rw [List.mem_singleton.1 ha]
      exact ⟨_, rfl⟩

/-! ### The armed port -/

theorem muxRoute_routed {g : Config} (hw : g.layout.Wired) (w : Word) (c : Col) :
    routed g.layout (Upd.muxRoute.apply g w) c = true := by
  fin_cases c <;> simp [Upd.apply, routed_route hw, routed_route_of_ne hw]

/-- A routed line's field is within the four's. -/
theorem route_outside (l : Layout) (c : Col) (w : Word) :
    route l c w &&& ~~~(muxBits l) = w &&& ~~~(muxBits l) := by
  apply BitVec.eq_of_getLsbD_eq
  intro j hj
  rw [BitVec.getLsbD_and, BitVec.getLsbD_and, route, setBits_getLsbD]
  cases hc : (muxMask l c).getLsbD j with
  | false => rfl
  | true =>
    have hin : (muxBits l).getLsbD j = true := by
      simp only [muxBits, BitVec.getLsbD_or, Bool.or_eq_true]
      fin_cases c <;> simp_all
    simp [hin]

theorem muxRoute_outside (g : Config) (w : Word) :
    Upd.muxRoute.apply g w &&& ~~~(muxBits g.layout) = w &&& ~~~(muxBits g.layout) := by
  simp only [Upd.apply, route_outside]

/-- From K5 on the port has its directions, with the rows driven, and its lines are routed. -/
theorem InitAt.directed (hw : s.cfg.Wired) (h : InitAt s n t) (hn : 10 ≤ n) :
    t.regs.mode.extractLsb' 0 16 = idleMode t.cfg ∧ t.regs.pull.extractLsb' 0 16 = 0xAAAA#16 ∧
      t.regs.odr.extractLsb' 0 8 = 0xFF#8 ∧ ∀ c : Col, routed t.cfg.layout t.regs.mux c = true := by
  have hmode : t.regs.mode = _ := h.get (j := 1) (r := .mode) rfl (by omega)
  have hpull : t.regs.pull = _ := h.get (j := 2) (r := .pull) rfl (by omega)
  have hodr : t.regs.odr = _ := h.get (j := 3) (r := .odr) rfl (by omega)
  have hmux : t.regs.mux = _ := h.get (j := 4) (r := .mux) rfl (by omega)
  rw [hmode, hpull, hodr, hmux, h.cfg]
  exact ⟨setLow16_low .., setLow16_low .., odrHigh_low .., muxRoute_routed hw.2.1 _⟩

/-- From K8 on it is armed. -/
theorem InitAt.portArmed (hw : s.cfg.Wired) (h : InitAt s n t) (hn : 16 ≤ n) : PortArmed t := by
  have hclken : t.regs.clken = _ := h.get (j := 0) (r := .clken) rfl (by omega)
  have hrtsr : t.regs.rtsr = _ := h.get (j := 5) (r := .rtsr) rfl (by omega)
  have himr : t.regs.imr = _ := h.get (j := 6) (r := .imr) rfl (by omega)
  have hirqen : t.regs.irqen = _ := h.get (j := 7) (r := .irqen) rfl (by omega)
  obtain ⟨hmode, hpull, hodr, hmux⟩ := h.directed hw (by omega)
  refine ⟨?_, hmode, hpull, hodr, hmux, ?_, ?_, fun c => ?_⟩
  · rw [← h.cfg] at hclken
    exact clocked_of_clkKeypad (r := .mode) hclken (by decide)
  · rw [hrtsr, linesOn_low]
  · rw [himr, linesOn_low]
  · rw [hirqen, h.cfg]
    exact irqOn_set _ _ c

/-! ### No line requests (R162, R271, R303) -/

/-- Where no line is selected, a re-evaluation latches nothing. -/
theorem settle_pr_unselected (h : s.regs.rtsr.extractLsb' 0 4 = 0#4) : s.settle.regs.pr = s.regs.pr := by
  have hbit : ∀ c : Col, s.spoil.regs.rtsr.getLsbD c.val = false := fun c => lineBit_of_lines_zero h c
  rw [settle_regs_pr, edges_of_masked fun c => by rw [hbit, Bool.false_and]]
  exact BitVec.or_zero

theorem requesting_unpending (h : s.regs.pr.extractLsb' 0 4 = 0#4) : requesting s = false := by
  have hreq : ∀ c, req s c = false := by
    intro c
    rw [req, lineBit_of_lines_zero h, Bool.false_and, Bool.false_and]
  simp [requesting, hreq]

/-- What an unbounded `KPD_INIT` starts from: no edge selected or pending, and no level that is drawn (`InitRuns`). -/
structure SilentStart (s : State) : Prop where
  wired : s.cfg.Wired
  unselected : s.regs.rtsr.extractLsb' 0 4 = 0#4
  sound : reservedPins s.regs.mode = 0#8

/-- Along it: no level is drawn, nothing is pending, and once the lines are routed they are seen at the levels of the
held keys, so that none rises when K6 selects them. -/
structure SilentAt (n : Nat) (t : State) : Prop where
  still : t.bouncing = false
  sound : t.spoiled = 0
  unpending : t.regs.pr.extractLsb' 0 4 = 0#4
  seen : 10 ≤ n → ∀ c, t.lvl.get c = columnHeld t.keys c

/-- Before K2 no pin has a reserved mode, and after it none can have. -/
theorem InitAt.reservedPins (hs : SilentStart s) (h : InitAt s n t) : reservedPins t.regs.mode = 0#8 := by
  have hmode := h.updated 1 .mode .modeIdle rfl
  by_cases hn : n ≤ 3
  · have hreg : t.regs.mode = s.regs.mode := hmode.before hn
    rw [hreg, hs.sound]
  · have hreg : t.regs.mode = _ := hmode.after (by omega)
    rw [hreg]
    exact reservedPins_keypadOutputs (g := s.cfg) (setLow16_low ..)

/-- A micro-step and its re-evaluation: before K6 no line is selected, and from then on each reads as it was seen. -/
theorem SilentAt.initStep (hs : SilentStart s) (hv : InitAt s (n + 1) v) (h : SilentAt n t) (hst : InitStep n t v) :
    SilentAt (n + 1) v.settle := by
  obtain ⟨-, hkeys, hbouncing, hspoiled, hlvl, -, hpr⟩ := initStep_kept hst
  have hspoil : v.spoil = v := spoil_of_sound (hv.reservedPins hs)
  have hstill : v.bouncing = false := hbouncing.trans h.still
  have hsound : v.spoiled = 0 := hspoiled.trans h.sound
  have hlevel : 10 ≤ n + 1 → ∀ c, lineLevel v.spoil c = columnHeld v.keys c := by
    intro hn c
    have hwired : v.cfg.Wired := hv.cfg ▸ hs.wired
    obtain ⟨hmode, hpull, hodr, hmux⟩ := hv.directed hs.wired hn
    rw [hspoil, lineLevel_column ⟨hwired, hmode, hpull, hodr, hstill, hsound⟩ (hmux c)]
  have hkept : v.settle.regs.pr = v.regs.pr := by
    by_cases hn : n + 1 ≤ 11
    · have hrtsr : v.regs.rtsr = s.regs.rtsr := (hv.updated 5 .rtsr .linesOn rfl).before hn
      exact settle_pr_unselected (hrtsr ▸ hs.unselected)
    · refine settle_pr_steady fun c => ?_
      rw [hlevel (by omega), hkeys, ← h.seen (by omega), hlvl]
  refine ⟨hstill, (congrArg State.spoiled hspoil).trans hsound, ?_, fun hn c => ?_⟩
  · rw [hkept, hpr, h.unpending]
  · rw [settle_lvl_get, hlevel hn]
    rfl

theorem fgInvariant_silent (hs : SilentStart s) :
    FgInvariant kpdInitProgram (fun n t => InitAt s n t ∧ SilentAt n t) where
  fgpos n t p h := ⟨(fgInvariant_init s).fgpos n t p h.1, { h.2 with }⟩
  turnOver n t h := ⟨(fgInvariant_init s).turnOver n t h.1, { h.2 with }⟩
  accept t h := ⟨(fgInvariant_init s).accept t h.1, { h.2 with }⟩
  step _ _ _ _ hm h hx :=
    have hst := initStep_of_micro hm hx
    have hv := h.1.initStep hst
    ⟨hv.settle, h.2.initStep hs hv hst⟩

/-! ### Completion -/

/-- `KPD_INIT` completes, with all its micro-steps done. -/
theorem kpdInit_completes (hw : s.cfg.Wired) (hidle : FgIdle s) (hruns : InitRuns s) :
    ∃ t, exec .kpdInit s = .next t ∧ t.fgpos = .idle ∧ InitAt s 18 t := by
  have hexec : exec .kpdInit s = runFg .kpdInit 1 kpdInitProgram s.quantum { s.turnOver with result := none } :=
    hostCommand_accepted (checks := fun _ => none) hidle rfl
  have hpoll : Micro.pollSlot ∉ kpdInitProgram := by decide
  rw [hexec]
  rcases hruns with ⟨l, hq, hl⟩ | ⟨hq, hrtsr, hpr, hstill, hsound, hmode⟩
  · exact runFg_completes (j := 0) (fgInvariant_init s) (fun _ _ _ => kpdInit_goes_on) hpoll (Nat.zero_le _)
      (InitAt.start s) (.inl ⟨l, hq, by rw [Nat.zero_add]; exact hl⟩)
  · obtain ⟨t, ht, hpos, hinit, -⟩ := runFg_completes (j := 0) (i := .kpdInit) (k := 1)
      (fgInvariant_silent ⟨hw, hrtsr, hmode⟩) (fun _ _ _ hm h => kpdInit_goes_on hm h.1) hpoll (Nat.zero_le _)
      ⟨InitAt.start s, hstill, hsound, hpr, by omega⟩
      (.inr ⟨hq, fun _ _ h => requesting_unpending h.2.unpending⟩)
    exact ⟨t, ht, hpos, hinit⟩

/-- Settles O19: the program completes (`kpdInit_completes`), and each register holds its update. -/
theorem kpdInitArmsThePort : Obligations.KpdInitArmsThePort := by
  unfold Obligations.KpdInitArmsThePort
  intro s hw hidle hruns
  obtain ⟨t, hexec, hpos, h⟩ := kpdInit_completes hw hidle hruns
  obtain ⟨-, -, -, -, -, hpending, hlmode, hlodr⟩ := kpdInit_frame hexec
  have hmode : t.regs.mode = _ := h.get (j := 1) (r := .mode) rfl (by omega)
  have hpull : t.regs.pull = _ := h.get (j := 2) (r := .pull) rfl (by omega)
  have hodr : t.regs.odr = _ := h.get (j := 3) (r := .odr) rfl (by omega)
  have hmux : t.regs.mux = _ := h.get (j := 4) (r := .mux) rfl (by omega)
  have hrtsr : t.regs.rtsr = _ := h.get (j := 5) (r := .rtsr) rfl (by omega)
  have himr : t.regs.imr = _ := h.get (j := 6) (r := .imr) rfl (by omega)
  refine ⟨t, hexec, h.portArmed hw (by omega), h.slot (by omega), h.flag (by omega), hpos, h.result, hpending,
    h.get (j := 0) (r := .clken) rfl (by omega), ?_, ?_, ?_, ?_, ?_, ?_, h.get (j := 7) (r := .irqen) rfl (by omega),
    hlmode, hlodr⟩
  · rw [hmode]
    exact setLow16_high ..
  · rw [hpull]
    exact setLow16_high ..
  · rw [hodr]
    exact odrHigh_high ..
  · rw [hrtsr]
    exact linesOn_high ..
  · rw [himr]
    exact linesOn_high ..
  · rw [hmux]
    exact muxRoute_outside ..

end Sys2Proof.Machine
end

section
/-! PROOFS. The statements of 41_lcd_ops: the bus is only written (R181, R312), the settle delay (R183, R184), and the
operands that are refused (R187, R196, R200). -/

namespace Sys2Proof.Machine

variable {s t : State} {i : Instr}

/-! ### The bus is only written (R181, R312) -/

/-- The device executes no read (R110, R232, R233). -/
theorem deviceExec_rw (h : deviceExec i s = .next t) : (lbWord i).getLsbD 8 = false := by
  cases i with
  | clearDisplay | returnHome _ | entryModeSet _ _ | displayControl _ _ _ | cursorDisplayShift _ _ _
  | functionSet _ _ _ _ | setCgramAddr _ | setDdramAddr _ | writeData _ => exact busWord_rw _ false _
  | _ => cases h

theorem DeviceWrites.events (h : DeviceWrites s t) : t.events = s.events := by
  obtain ⟨_, _, _, rfl⟩ := h
  rfl

/-- The word executed is latched, and nothing else is recorded. -/
theorem deviceExec_events (h : deviceExec i s = .next t) : t.events = s.events ++ [.latch (lbWord i)] :=
  (deviceExec_deviceWrites h).events

theorem onlyWrites_of_events (hs : OnlyWrites s) (h : t.events = s.events) : OnlyWrites t :=
  fun w hw => hs w (h ▸ hw)

theorem onlyWrites_delay {d : Nat} (hs : OnlyWrites s) (h : t.events = s.events ++ [.delay d]) : OnlyWrites t := by
  intro w hw
  rw [h] at hw
  exact hs w (by simpa using hw)

theorem deviceExec_onlyWrites (hs : OnlyWrites s) (h : deviceExec i s = .next t) : OnlyWrites t := by
  intro w hw
  rw [deviceExec_events h, List.mem_append, List.mem_singleton] at hw
  rcases hw with hw | hw
  · exact hs w hw
  · cases hw
    exact deviceExec_rw h

theorem busLine_onlyWrites {f : Word → Word} (hs : OnlyWrites s) (h : busLine f s = .next t) : OnlyWrites t := by
  rw [busLine_next h]
  exact hs

/-- The trace grows at a latch of the sequencer's, which the device executes, and at the two delays. -/
theorem micro_onlyWrites {x : Ctx} {m : Micro} (hs : OnlyWrites s) (h : micro x m s = .next t) : OnlyWrites t := by
  cases m with
  | busE b =>
    obtain ⟨v, hv, rfl | ⟨-, -, hw⟩⟩ := busEnable_next h
    · exact busLine_onlyWrites hs hv
    · obtain ⟨i, -, hi⟩ := latchWord_next hw
      exact deviceExec_onlyWrites (busLine_onlyWrites hs hv) hi
  | busRs _ | busRw _ | busD _ => rw [micro] at h; exact busLine_onlyWrites hs h
  | settleDelay _ _ | debounce => cases h; exact onlyWrites_delay hs rfl
  | read r => rw [micro] at h; rw [microRead_next h]; exact onlyWrites_of_events hs (by cases x <;> rfl)
  | write r u => rw [micro] at h; rw [regUpdate_next h]; exact hs
  | sample => rw [micro] at h; rw [sampleRows_next h]; exact hs
  | ack c => rw [micro] at h; rw [regWrite_next h]; exact hs
  | record c => cases h; exact onlyWrites_of_events hs (by unfold recordKey; split <;> rfl)
  | clearSlot | readSlot | returnSlot | pollSlot | returnCharOfV | returnCharOf _ | setLut _ | setKpdInit | setLcdInit
  | lookup => cases h; exact hs

/-- The environment latches nothing, and reset keeps the observations made (log 14). -/
theorem envStep_onlyWrites {e : EnvStep} (hs : OnlyWrites s) (h : envStep e s = .next t) : OnlyWrites t := by
  cases e with
  | key _ _ _ | bounce _ | reset => cases h; exact hs
  | lcdPowered => cases h; exact onlyWrites_of_events hs (by simp only [settle_events, powerLcd]; split <;> rfl)
  | tableChanged =>
    simp only [envStep] at h
    split at h <;> cases h
    exact hs

theorem keptByStep_onlyWrites : KeptByStep OnlyWrites where
  fgpos _ _ h := h
  isrpos _ _ h := h
  turnOver _ h := h
  accept _ h := h
  settle _ h := h
  micro _ _ _ _ h hm := micro_onlyWrites h hm
  device _ _ _ h hd := deviceExec_onlyWrites h hd
  quantum _ _ h := h
  port _ _ h := h
  sched _ _ h := h
  env _ _ _ h he := envStep_onlyWrites h he

/-- Settles O55: every part of a step keeps the trace free of reads, as the device refuses to execute one. -/
theorem busIsOnlyWritten : Obligations.BusIsOnlyWritten := by
  unfold Obligations.BusIsOnlyWritten
  exact fun s t hs h => step_keeps keptByStep_onlyWrites hs h

/-! ### Operands out of their domain (R187, R196, R200) -/

theorem lcdReady_of_lcdInit {op : Byte} (h : s.lcdInit = true) : lcdReady op s = none := by
  simp [lcdReady, h]

theorem cursorChecks_of_lcdInit (h : s.lcdInit = true) (x y : Byte) :
    cursorChecks x y s = if x.toNat < 40 && y.toNat < 2 then none else some (.cursorRange x y s.pos) := by
  rw [cursorChecks, lcdReady_of_lcdInit h]
  rfl

theorem printChecks_of_lcdInit (h : s.lcdInit = true) (str : List Byte) :
    printChecks str s = if str.length ≤ 80 then none else some (.printTooLong str.length s.pos) := by
  rw [printChecks, lcdReady_of_lcdInit h]
  rfl

theorem writeInstrChecks_of_lcdInit (h : s.lcdInit = true) (v : Word) :
    writeInstrChecks v s = if v = 0 then some (.lcdReserved v s.pos) else none := by
  simp [writeInstrChecks, lcdReady_of_lcdInit h]

/-- Settles O40: each command's check, which comes before its first micro-step. -/
theorem operandsOutOfDomainAreRefused : Obligations.OperandsOutOfDomainAreRefused := by
  unfold Obligations.OperandsOutOfDomainAreRefused
  refine fun s hidle hi => ⟨fun x y hxy => ?_, fun str hlen => ?_, ?_⟩
  · have hout : ¬ (x.toNat < 40 && y.toNat < 2) = true := by
      rw [Bool.and_eq_true, decide_eq_true_eq, decide_eq_true_eq]
      omega
    exact hostCommand_refused hidle ((cursorChecks_of_lcdInit hi x y).trans (if_neg hout))
  · exact hostCommand_refused hidle ((printChecks_of_lcdInit hi str).trans (if_neg (by omega)))
  · exact hostCommand_refused hidle ((writeInstrChecks_of_lcdInit hi 0).trans (if_pos rfl))

/-! ### The settle delay (R183, R184, R221) -/

/-- An instruction byte that takes long: `CLEAR_DISPLAY` or `RETURN_HOME` (R184). -/
theorem slowByte_iff (b : Byte) :
    (b == 0x01 || (b &&& 0xFE) == 0x02) = true ↔ b.toNat = 1 ∨ b.toNat = 2 ∨ b.toNat = 3 := by
  revert b
  decide

theorem settleTime_char (c : Config) (b : Byte) : settleTime c true b = c.tShort.micros := rfl

theorem settleTime_instr (c : Config) (b : Byte) :
    settleTime c false b =
      if b.toNat = 1 ∨ b.toNat = 2 ∨ b.toNat = 3 then c.tLong.micros else c.tShort.micros := by
  simp only [settleTime, Bool.not_false, Bool.true_and, slowByte_iff]

theorem busyClass_char (b : Byte) : busyClass (busWord true false b) = .short := by
  simp [busyClass, busWord_rs]

theorem busyClass_instr (b : Byte) :
    busyClass (busWord false false b) = if b.toNat = 1 ∨ b.toNat = 2 ∨ b.toNat = 3 then .long else .short := by
  simp only [busyClass, busWord_rs, busWord_byte, Bool.not_false, Bool.true_and, slowByte_iff]

/-- Settles O51: the two delays and classes by their lemmas, W6 by its definition. -/
theorem settleDelayFreesTheDevice : Obligations.SettleDelayFreesTheDevice := by
  unfold Obligations.SettleDelayFreesTheDevice
  refine ⟨fun c b => ⟨settleTime_char c b, settleTime_instr c b⟩, fun b => ⟨busyClass_char b, busyClass_instr b⟩,
    fun s rs b => ⟨s.settleDelay rs b, rfl, rfl, ?_, ?_, ?_, ?_⟩⟩
  all_goals
    intro hbusy htime
    simp [hbusy, covers, htime]

end Sys2Proof.Machine
end

section
/-! PROOFS. The statements of 41_lcd_ops: the frame of the LCD commands (R47, R48, R187 to R199, R314). -/

namespace Sys2Proof.Machine

variable {s t v : State} {i : Instr} {m : Micro} {prog : List Micro}

/-! ### The micro-steps of the write protocol (R181) -/

/-- W1 to W6. -/
def Micro.isBus : Micro → Bool
  | .busE _ | .busRs _ | .busRw _ | .busD _ | .settleDelay _ _ => true
  | .read _ | .write _ _ | .clearSlot | .readSlot | .returnSlot | .pollSlot | .returnCharOfV | .returnCharOf _
  | .setLut _ | .setKpdInit | .setLcdInit | .debounce | .sample | .lookup | .record _ | .ack _ => false

theorem role_ne_pr_of_isBus (hm : m.isBus = true) : m.role ≠ some .pr := by
  cases m with
  | busE _ | busRs _ | busRw _ | busD _ | settleDelay _ _ => simp [Micro.role]
  | _ => cases hm

theorem writeByte_isBus (rs : Bool) (b : Byte) : ∀ m ∈ writeByte rs b, m.isBus = true := by
  simp [writeByte, Micro.isBus]

theorem writeBus_isBus (rs : Bool) (w : Word) : ∀ m ∈ writeBus rs w, m.isBus = true := by
  unfold writeBus
  split
  · simp
  · exact writeByte_isBus rs _

theorem shiftsRight_isBus (n : Nat) : ∀ m ∈ shiftsRight n, m.isBus = true := by
  induction n with
  | zero => simp [shiftsRight]
  | succ n ih => exact List.forall_mem_append.2 ⟨writeByte_isBus _ _, ih⟩

theorem lcdPrintProgram_isBus (str : List Byte) : ∀ m ∈ lcdPrintProgram str, m.isBus = true := by
  induction str with
  | nil => simp [lcdPrintProgram]
  | cons b str ih => exact List.forall_mem_append.2 ⟨writeByte_isBus _ _, ih⟩

/-- The LCD commands but `LCD_INIT` write bus words and nothing else. -/
theorem commandProgram_isBus (h7 : i.opcode.getLsbD 7 = true) (hi : i ≠ .lcdInit) :
    ∀ m ∈ commandProgram i, m.isBus = true := by
  cases i with
  | lcdInit => exact absurd rfl hi
  | lcdClear | lcdHome | lcdCursorShow | lcdCursorHide => exact writeByte_isBus _ _
  | lcdCursorSet x y => exact List.forall_mem_append.2 ⟨writeByte_isBus _ _, shiftsRight_isBus _⟩
  | lcdPrint str => exact lcdPrintProgram_isBus str
  | lcdWriteInstr w | lcdWriteData w => exact writeBus_isBus _ w
  | kpdInit | kpdClear | kpdGet | kpdWait | kpdGetWait | kpdGetChar | kpdGetCharWait | kpdToChar _
  | kpdSetCharLut _ => simp [Instr.opcode] at h7
  | _ => exact fun m hm => absurd hm List.not_mem_nil

/-! ### What a bus word leaves alone (R47, R48, R314) -/

/-- The state with the cells that writing a bus word changes put out of sight: the LCD's output register (`LODR`, or
`ODR` in a shared port), `PR` and the edge detector's cells, the display and its trace, the foreground's position, the
result, the turn's bound and the stamp. -/
def State.outsideBus (s : State) : State :=
  { s with
    regs := { s.regs with odr := 0, lodr := 0, pr := 0 }
    lvl := { c0 := false, c1 := false, c2 := false, c3 := false }
    spoiled := 0, events := [], anyLatch := false, devBusy := .free, dev := Dev.reset, vram := []
    fgpos := .idle, result := none, quantum := none, draws := 0 }

/-- What writing bus words keeps. -/
structure BusKept (s t : State) : Prop where
  rest : t.outsideBus = s.outsideBus
  odr : s.cfg.lcdShares = false → t.regs.odr = s.regs.odr
  lodr : s.cfg.lcdShares = true → t.regs.lodr = s.regs.lodr
  others : ∀ n : Nat, (∀ p ∈ s.cfg.layout.lcdPins, p.val ≠ n) → (lcdOut t).getLsbD n = (lcdOut s).getLsbD n

namespace BusKept

theorem refl (s : State) : BusKept s s := ⟨rfl, fun _ => rfl, fun _ => rfl, fun _ _ => rfl⟩

/-- What is read of the rest reads as before. -/
theorem kept {α : Type} (h : BusKept s t) (f : State → α) : f t.outsideBus = f s.outsideBus := congrArg f h.rest

theorem cfg (h : BusKept s t) : t.cfg = s.cfg := h.kept State.cfg

theorem clken (h : BusKept s t) : t.regs.clken = s.regs.clken := h.kept (·.regs.clken)

theorem trans (h : BusKept s t) (h' : BusKept t v) : BusKept s v := by
  have hc := h.cfg
  refine ⟨h'.rest.trans h.rest, fun hs => (h'.odr (hc ▸ hs)).trans (h.odr hs),
    fun hs => (h'.lodr (hc ▸ hs)).trans (h.lodr hs), fun n hn => ?_⟩
  rw [h'.others n (by rwa [hc]), h.others n hn]

end BusKept

theorem lcdOut_congr (hc : t.cfg = s.cfg) (ho : t.regs.odr = s.regs.odr) (hl : t.regs.lodr = s.regs.lodr) :
    lcdOut t = lcdOut s := by
  rw [lcdOut, lcdOut, hc]
  cases s.cfg.lcdShares
  · exact hl
  · exact ho

theorem lcdOut_bit (hc : t.cfg = s.cfg) (ho : t.regs.odr = s.regs.odr) (hl : t.regs.lodr = s.regs.lodr) (n : Nat) :
    (lcdOut t).getLsbD n = (lcdOut s).getLsbD n := by
  rw [lcdOut_congr hc ho hl]

/-- Where both output registers are as before, so are the lines. -/
theorem busKept_of_outputs (h : t.outsideBus = s.outsideBus) (ho : t.regs.odr = s.regs.odr)
    (hl : t.regs.lodr = s.regs.lodr) : BusKept s t := by
  have hc : t.cfg = s.cfg := (congrArg State.cfg h :)
  exact ⟨h, fun _ => ho, fun _ => hl, fun n _ => lcdOut_bit hc ho hl n⟩

theorem settle_busKept (s : State) : BusKept s s.settle := busKept_of_outputs rfl rfl rfl

theorem DeviceWrites.busKept {w : BusWord} (h : DeviceWrites (s.latched w) t) : BusKept s t := by
  obtain ⟨_, _, _, rfl⟩ := h
  exact busKept_of_outputs rfl rfl rfl

/-- `f` changes no bit of the output register but the LCD lines' (R47). -/
abbrev MovesLines (l : Layout) (f : Word → Word) : Prop :=
  ∀ (w : Word) (n : Nat), (∀ p ∈ l.lcdPins, p.val ≠ n) → (f w).getLsbD n = w.getLsbD n

theorem movesLines_setBit {l : Layout} {p : PortPin} (hp : p ∈ l.lcdPins) (b : Bool) :
    MovesLines l (fun w => setBit w p.val b) := by
  intro w n hn
  rw [setBit_getLsbD, if_neg (hn p hp).symm]

theorem movesLines_setData (l : Layout) (b : Byte) : MovesLines l (setData l b) :=
  fun w _ hn => setData_other b w fun i => hn _ (dataPin_mem l i)

theorem lcdRs_mem (l : Layout) : l.lcdRs ∈ l.lcdPins := by simp [Layout.lcdPins]

theorem lcdRw_mem (l : Layout) : l.lcdRw ∈ l.lcdPins := by simp [Layout.lcdPins]

theorem lcdE_mem (l : Layout) : l.lcdE ∈ l.lcdPins := by simp [Layout.lcdPins]

theorem busLine_busKept {f : Word → Word} (hf : MovesLines s.cfg.layout f) (h : busLine f s = .next t) :
    BusKept s t := by
  have hout := busLine_lcdOut h
  obtain rfl := busLine_next h
  refine ⟨?_, fun hs => ?_, fun hs => ?_, fun n hn => by rw [hout, hf _ n hn]⟩
  · cases hs : s.cfg.lcdShares <;> simp [State.outsideBus, portRole, Regs.set]
  · simp [portRole, hs, Regs.set]
  · simp [portRole, hs, Regs.set]

/-- Each micro-step of the write protocol keeps it: a line's change, a latch on the way, or the delay. -/
theorem micro_busKept (hm : m.isBus = true) (h : micro .fg m s = .next t) : BusKept s t := by
  cases m with
  | busE b =>
    obtain ⟨u, hu, rfl | ⟨-, -, hw⟩⟩ := busEnable_next h
    · exact busLine_busKept (movesLines_setBit (lcdE_mem _) b) hu
    · obtain ⟨j, -, hj⟩ := latchWord_next hw
      exact (busLine_busKept (movesLines_setBit (lcdE_mem _) b) hu).trans (deviceExec_deviceWrites hj).busKept
  | busRs b => exact busLine_busKept (movesLines_setBit (lcdRs_mem _) b) h
  | busRw b => exact busLine_busKept (movesLines_setBit (lcdRw_mem _) b) h
  | busD b => exact busLine_busKept (movesLines_setData _ b) h
  | settleDelay rs b =>
    cases h
    exact busKept_of_outputs rfl rfl rfl
  | _ => cases hm

theorem fgInvariant_busKept (hp : ∀ m ∈ prog, m.isBus = true) (s : State) :
    FgInvariant prog (fun _ t => BusKept s t) where
  fgpos _ _ _ h := { h with }
  turnOver _ _ h := { h with }
  accept _ h := { h with }
  step _ m _ b hm ha hab :=
    ha.trans ((micro_busKept (hp m (List.mem_of_getElem? hm)) hab).trans (settle_busKept b))

/-! ### What `LCD_INIT` leaves alone (R189) -/

/-- What micro-step `n + 1` of `LCD_INIT` does, before the re-evaluation that ends it: I1 and I2, then bus words, and I8. -/
inductive LcdInitStep : Nat → State → State → Prop
  | readClock (s : State) : LcdInitStep 0 s { s with fgT := s.regs.clken }
  | clock (s : State) : LcdInitStep 1 s { s with regs := { s.regs with clken := Upd.clkLcd.apply s.cfg s.fgT } }
  | readMode (s : State) : LcdInitStep 2 s { s with fgT := lcdMode s }
  | direct (s : State) : LcdInitStep 3 s (State.directed
      { s with regs := s.regs.set (portRole s.cfg.lcdShares .lmode) (lcdLinesOut s.cfg.layout s.fgT) } .lcdOutput)
  | bus (n : Nat) (m : Micro) (s t : State) : m.isBus = true → micro .fg m s = .next t → LcdInitStep (n + 4) s t
  | flag (n : Nat) (s : State) : LcdInitStep (n + 4) s { s with lcdInit := true }

/-- `lcdInitProgram` by what its micro-steps do. -/
theorem lcdInitStep_of_micro {n : Nat} (hm : lcdInitProgram[n]? = some m) (h : micro .fg m s = .next t) :
    LcdInitStep n s t := by
  match n with
  | 0 => cases hm; cases h; exact .readClock s
  | 1 => cases hm; rw [micro_write_next h (by decide)]; exact .clock s
  | 2 => cases hm; rw [microRead_next h]; exact .readMode s
  | 3 => cases hm; rw [micro] at h; rw [regUpdate_next h]; exact .direct s
  | n + 4 =>
    have hrest : ∀ m ∈ lcdInitProgram.drop 4, m.isBus = true ∨ m = .setLcdInit := by decide
    have hmem : m ∈ lcdInitProgram.drop 4 := List.mem_of_getElem? (i := n) (by rw [List.getElem?_drop, Nat.add_comm, hm])
    rcases hrest m hmem with hbus | rfl
    · exact .bus n m s t hbus h
    · cases h; exact .flag n s

/-- The state with the other cells of `LCD_INIT` put out of sight: `CLKEN`, the LCD's mode register (`LMODE`, or `MODE`
in a shared port), the lines without a field, the flag and the foreground's `t`. -/
def State.outsideLcdInit (s : State) : State :=
  { s with
    regs := { s.regs with clken := 0, mode := 0, lmode := 0 }
    highOut := false, lcdInit := false, fgT := 0 }

/-- What every LCD command keeps. -/
structure LcdKept (s t : State) : Prop where
  rest : t.outsideBus.outsideLcdInit = s.outsideBus.outsideLcdInit
  odr : s.cfg.lcdShares = false → t.regs.odr = s.regs.odr
  lodr : s.cfg.lcdShares = true → t.regs.lodr = s.regs.lodr
  mode : s.cfg.lcdShares = false → t.regs.mode = s.regs.mode
  lmode : s.cfg.lcdShares = true → t.regs.lmode = s.regs.lmode
  others : ∀ n : Nat, (∀ p ∈ s.cfg.layout.lcdPins, p.val ≠ n) → (lcdOut t).getLsbD n = (lcdOut s).getLsbD n

theorem BusKept.lcdKept (h : BusKept s t) : LcdKept s t where
  rest := congrArg State.outsideLcdInit h.rest
  odr := h.odr
  lodr := h.lodr
  mode _ := h.kept (·.regs.mode)
  lmode _ := h.kept (·.regs.lmode)
  others := h.others

namespace LcdKept

theorem kept {α : Type} (h : LcdKept s t) (f : State → α) :
    f t.outsideBus.outsideLcdInit = f s.outsideBus.outsideLcdInit := congrArg f h.rest

theorem cfg (h : LcdKept s t) : t.cfg = s.cfg := h.kept State.cfg

theorem trans (h : LcdKept s t) (h' : LcdKept t v) : LcdKept s v := by
  have hc := h.cfg
  refine ⟨h'.rest.trans h.rest, fun hs => (h'.odr (hc ▸ hs)).trans (h.odr hs),
    fun hs => (h'.lodr (hc ▸ hs)).trans (h.lodr hs), fun hs => (h'.mode (hc ▸ hs)).trans (h.mode hs),
    fun hs => (h'.lmode (hc ▸ hs)).trans (h.lmode hs), fun n hn => ?_⟩
  rw [h'.others n (by rwa [hc]), h.others n hn]

end LcdKept

/-- The two roles of the LCD's port name different registers (R314). -/
theorem portRole_lodr_ne_lmode (shares : Bool) : portRole shares .lodr ≠ portRole shares .lmode := by
  cases shares <;> decide

theorem portRole_lmode_ne_idr (shares : Bool) : portRole shares .lmode ≠ .idr := by
  cases shares <;> decide

/-- I2's write leaves the lines' output bits. -/
theorem lcdOut_set_lmode (s : State) (w : Word) :
    lcdOut { s with regs := s.regs.set (portRole s.cfg.lcdShares .lmode) w } = lcdOut s :=
  Regs.get_set_of_ne _ (portRole_lodr_ne_lmode _) _

/-- It stores the word in the mode register. -/
theorem lcdMode_directed (s : State) (w : Word) (u : Upd) :
    lcdMode (State.directed { s with regs := s.regs.set (portRole s.cfg.lcdShares .lmode) w } u) = w :=
  Regs.get_set _ (portRole_lmode_ne_idr _) _

theorem lcdInitStep_lcdKept {n : Nat} (h : LcdInitStep n s t) : LcdKept s t := by
  cases h with
  | bus _ _ _ _ hm hx => exact (micro_busKept hm hx).lcdKept
  | direct =>
    refine ⟨?_, fun hs => ?_, fun hs => ?_, fun hs => ?_, fun hs => ?_,
      fun n _ => congrArg (·.getLsbD n) (lcdOut_set_lmode s (lcdLinesOut s.cfg.layout s.fgT))⟩
    · cases hs : s.cfg.lcdShares <;> rfl
    all_goals simp [hs, portRole, Regs.set]
  | readClock | clock | readMode | flag =>
    exact ⟨rfl, fun _ => rfl, fun _ => rfl, fun _ => rfl, fun _ => rfl,
      fun n _ => lcdOut_bit (by rfl) (by rfl) (by rfl) n⟩

theorem fgInvariant_lcdInitKept (s : State) : FgInvariant lcdInitProgram (fun _ t => LcdKept s t) where
  fgpos _ _ _ h := { h with }
  turnOver _ _ h := { h with }
  accept _ h := { h with }
  step _ _ _ b hm ha hab :=
    ha.trans ((lcdInitStep_lcdKept (lcdInitStep_of_micro hm hab)).trans (settle_busKept b).lcdKept)

theorem lcdMode_congr (hc : t.cfg = s.cfg) (hm : t.regs.mode = s.regs.mode) (hl : t.regs.lmode = s.regs.lmode) :
    lcdMode t = lcdMode s := by
  rw [lcdMode, lcdMode, hc]
  cases s.cfg.lcdShares
  · exact hl
  · exact hm

theorem BusKept.lcdMode (h : BusKept s t) : lcdMode t = lcdMode s :=
  lcdMode_congr h.cfg (h.kept (·.regs.mode)) (h.kept (·.regs.lmode))

/-- Bit `j` of the LCD's mode register is `b`, and between I2's read and its write so is that of the local `t`. -/
def ModeBitAt (j : Nat) (b : Bool) (n : Nat) (t : State) : Prop :=
  (lcdMode t).getLsbD j = b ∧ (n = 3 → t.fgT.getLsbD j = b)

/-- A bit that is in no LCD line's field is written back as it was read (R47). -/
theorem fgInvariant_modeBit (c : Config) {j : Nat} (b : Bool)
    (hj : ∀ p ∈ c.layout.lcdPins, j ≠ 2 * p.val ∧ j ≠ 2 * p.val + 1) :
    FgInvariant lcdInitProgram (fun n t => t.cfg = c ∧ ModeBitAt j b n t) where
  fgpos _ _ _ h := h
  turnOver _ _ h := h
  accept _ h := h
  step n m u v hm hu hx := by
    obtain ⟨rfl, hmode, ht⟩ := hu
    refine ⟨(micro_cfg hx :), ?_⟩
    have hset : lcdMode v.settle = lcdMode v := lcdMode_congr rfl rfl rfl
    rw [ModeBitAt, hset]
    cases lcdInitStep_of_micro hm hx with
    | readMode => exact ⟨hmode, fun _ => hmode⟩
    | direct =>
      refine ⟨?_, by omega⟩
      rw [lcdMode_directed, lcdLinesOut_getLsbD hj, ht rfl]
    | bus _ _ _ _ hbus hx' => exact ⟨by rw [(micro_busKept hbus hx').lcdMode, hmode], by omega⟩
    | readClock | clock | flag => exact ⟨by rwa [lcdMode_congr (s := u) (by rfl) (by rfl) (by rfl)], by omega⟩

/-! ### The frame -/

/-- A command keeps what its program keeps, if that holds before it wherever the command may go on. -/
theorem command_invariant_from {P : Nat → State → Prop} (hi : i.format = .hc) (h : FgInvariant (commandProgram i) P)
    (h0 : P 0 s) (hs : ∀ k, s.fgpos = .inOp i k → P (k - 1) s) (hr : exec i s = .next t) : ∃ n, P n t := by
  obtain ⟨checks, hcmd⟩ := exec_command hi hr
  rcases hostCommand_cases hcmd with rfl | ⟨-, hrun⟩ | ⟨k, hat, hrun⟩
  · exact ⟨_, h.turnOver _ _ h0⟩
  · exact runFg_invariant (j := 0) h (h.accept _ (h.turnOver _ _ h0)) hrun
  · exact runFg_invariant h (h.turnOver _ _ (hs k hat.2)) hrun

/-- An LCD command but `LCD_INIT` keeps what bus words keep. -/
theorem busCommand_kept (hi : i.format = .hc) (h7 : i.opcode.getLsbD 7 = true) (hn : i ≠ .lcdInit)
    (h : exec i s = .next t) : BusKept s t :=
  (command_invariant hi (fgInvariant_busKept (commandProgram_isBus h7 hn) s) (.refl s) h).elim fun _ h' => h'

theorem lcdCommand_kept (hi : i.format = .hc) (h7 : i.opcode.getLsbD 7 = true) (h : exec i s = .next t) :
    LcdKept s t := by
  by_cases hn : i = .lcdInit
  · subst hn
    exact (command_invariant (i := .lcdInit) hi (fgInvariant_lcdInitKept s) (BusKept.refl s).lcdKept h).elim fun _ h' => h'
  · exact (busCommand_kept hi h7 hn h).lcdKept

/-- No LCD command writes `PR`. -/
theorem lcdCommand_pending (hi : i.format = .hc) (h7 : i.opcode.getLsbD 7 = true) (h : exec i s = .next t) :
    pendingKept s t := by
  have hpr : ∀ m ∈ commandProgram i, m.isWrite = true → m.role ≠ some .pr := by
    by_cases hn : i = .lcdInit
    · subst hn
      decide
    · exact fun m hm _ => role_ne_pr_of_isBus (commandProgram_isBus h7 hn m hm)
  exact (command_invariant hi (fgInvariant_pending s hpr) (pendingKept_refl s) h).elim fun _ h' => h'

/-- Bits of the LCD's mode register that are in no line's field, unless `LCD_INIT` goes on here at I2's write. -/
theorem lcdCommand_modeBit (hi : i.format = .hc) (h7 : i.opcode.getLsbD 7 = true) (h : exec i s = .next t)
    (hat : s.fgpos ≠ .inOp .lcdInit 4) {j : Nat}
    (hj : ∀ p ∈ s.cfg.layout.lcdPins, j ≠ 2 * p.val ∧ j ≠ 2 * p.val + 1) :
    (lcdMode t).getLsbD j = (lcdMode s).getLsbD j := by
  by_cases hn : i = .lcdInit
  · subst hn
    have hstart : ∀ n, n ≠ 3 → s.cfg = s.cfg ∧ ModeBitAt j ((lcdMode s).getLsbD j) n s :=
      fun n hn => ⟨rfl, rfl, fun h3 => absurd h3 hn⟩
    obtain ⟨n, -, hbit, -⟩ := command_invariant_from (i := .lcdInit) hi (fgInvariant_modeBit s.cfg _ hj)
      (hstart 0 (by decide)) (fun k hk => hstart (k - 1) fun h3 => hat (by rw [hk, show k = 4 by omega])) h
    exact hbit
  · rw [(busCommand_kept hi h7 hn h).lcdMode]

/-- In a shared port no LCD line stands on the keypad's eight pins. -/
theorem lcdPins_above (hw : s.cfg.Wired) (hs : s.cfg.lcdShares = true) {p : PortPin} (hp : p ∈ s.cfg.layout.lcdPins) :
    8 ≤ p.val := by
  have h := hw.2.2 p hp
  rwa [hs, if_pos rfl] at h

/-- So its lines' changes keep `ODR[7:0]`. -/
theorem sharedOdr_kept (h : LcdKept s t) (hw : s.cfg.Wired) (hs : s.cfg.lcdShares = true) :
    t.regs.odr.extractLsb' 0 8 = s.regs.odr.extractLsb' 0 8 := by
  apply BitVec.eq_of_getLsbD_eq
  intro j hj
  have hbit := h.others j fun p hp => by have := lcdPins_above hw hs hp; omega
  simp only [lcdOut, h.cfg, hs, portRole, if_true, Regs.get] at hbit
  simp [hbit]

/-- Settles O42: `LcdKept` for every LCD command and `BusKept` for those but `LCD_INIT`, and I2's write by
`lcdCommand_modeBit`. -/
theorem lcdCommandFrames : Obligations.LcdCommandFrames := by
  unfold Obligations.LcdCommandFrames
  intro s t i hi h7 h
  have hlcd := lcdCommand_kept hi h7 h
  have hbit := fun hat j => lcdCommand_modeBit hi h7 h hat (j := j)
  have kept {α : Type} (f : State → α) : f t.outsideBus.outsideLcdInit = f s.outsideBus.outsideLcdInit := hlcd.kept f
  refine ⟨kept (·.slot), ⟨kept (·.lut), kept (·.lutInstalled)⟩, kept (·.kpdInit),
    ⟨kept (·.isrpos), kept (·.isrT), kept (·.isrS), kept (·.isrR)⟩,
    ⟨kept (·.cfg), kept (·.refused), kept (·.faults), kept (·.keys), kept (·.bouncing), kept (·.lcdPowered),
      kept (·.port), kept (·.sched)⟩,
    lcdCommand_pending hi h7 h, ?_, kept (·.regs.pull), kept (·.regs.mux), kept (·.regs.imr), kept (·.regs.rtsr),
    kept (·.regs.irqen), hlcd.odr, fun hs => ⟨hlcd.lmode hs, hlcd.lodr hs⟩, hlcd.others, hbit, ?_, fun hn => ?_⟩
  · rintro (hn | hs)
    · exact (busCommand_kept hi h7 hn h).kept (·.regs.mode)
    · exact hlcd.mode hs
  · intro hw hs
    refine ⟨sharedOdr_kept hlcd hw hs, fun hat => BitVec.eq_of_getLsbD_eq fun j hj => ?_⟩
    have hj := hbit hat j fun p hp => by have := lcdPins_above hw hs hp; omega
    simp only [lcdMode, hlcd.cfg, hs, portRole, if_true, Regs.get] at hj
    simp [hj]
  · have hbus := busCommand_kept hi h7 hn h
    exact ⟨hbus.kept (·.lcdInit), hbus.clken, hbus.kept (·.regs.lmode), hbus.kept (·.highOut)⟩

end Sys2Proof.Machine
end

section
/-! PROOFS. The statements of 41_lcd_ops: what a word makes of the display, wherever it is latched (R220 to R231). -/

namespace Sys2Proof.Machine

variable {s t u : State} {i : Instr} {rs : Bool} {b : Byte}

/-! ### The effect of a word (R223 to R231) -/

/-- What a bus word's instruction makes of the display, before the cursor of one-line mode is drawn. -/
def instrEffect : Instr → State → State
  | .clearDisplay => clearEffect
  | .returnHome _ => homeEffect
  | .entryModeSet id sh => entryModeEffect id sh
  | .displayControl d c b => displayEffect d c b
  | .cursorDisplayShift sc rl _ => cursorShiftEffect sc rl
  | .functionSet dl n f _ => functionSetEffect dl n f
  | .setCgramAddr a => cgramAddrEffect a
  | .setDdramAddr a => ddramAddrEffect a
  | .writeData b => writeDataEffect b
  | .readBfAc _ | .readData _ | .kpdInit | .kpdClear | .kpdGet | .kpdWait | .kpdGetWait | .kpdGetChar
  | .kpdGetCharWait | .kpdToChar _ | .kpdSetCharLut _ | .lcdInit | .lcdClear | .lcdHome | .lcdCursorSet _ _
  | .lcdCursorShow | .lcdCursorHide | .lcdPrint _ | .lcdWriteInstr _ | .lcdWriteData _ | .hcReservedLow _
  | .hcReservedHigh _ | .kpdIsrCol0 | .kpdIsrCol1 | .kpdIsrCol2 | .kpdIsrCol3 => id

/-- Every word that is no read is latched with its effect. -/
theorem deviceExec_eq_latch (h : i.format = .lb) (hrw : (lbWord i).getLsbD 8 = false) (s : State) :
    deviceExec i s = latch (lbWord i) (instrEffect i) s := by
  cases i with
  | clearDisplay | returnHome _ | entryModeSet _ _ | displayControl _ _ _ | cursorDisplayShift _ _ _
  | functionSet _ _ _ _ | setCgramAddr _ | setDdramAddr _ | writeData _ => rfl
  | readBfAc x => rw [show lbWord (.readBfAc x) = busWord false true x from rfl, busWord_rw] at hrw; cases hrw
  | readData x => rw [show lbWord (.readData x) = busWord true true x from rfl, busWord_rw] at hrw; cases hrw
  | _ => cases h

/-- The bytes that are words: a character, or an instruction byte that is not 0 (R110, R234). -/
abbrev IsWord (rs : Bool) (b : Byte) : Prop := rs = true ∨ b ≠ 0

theorem decodeBus_isWord (h : IsWord rs b) : ∃ i, decodeBus (busWord rs false b) = .ok i := by
  have hall : ∀ b : Byte, b ≠ 0 → (decodeBus (busWord false false b)).toBool = true := by decide
  cases rs with
  | true => exact ⟨.writeData b, decodeBus_busWord ..⟩
  | false =>
    have hok := hall b (h.resolve_left (by decide))
    cases hd : decodeBus (busWord false false b) with
    | ok i => exact ⟨i, rfl⟩
    | error e => rw [hd] at hok; cases hok

theorem format_of_lb {w : BusWord} (h : encode i = .lb w) : i.format = .lb := by
  cases i <;> cases h <;> rfl

/-- The effect of what a written word decodes to. -/
def wordEffect (rs : Bool) (b : Byte) (s : State) : State :=
  match decodeBus (busWord rs false b) with
  | .ok i => instrEffect i s
  | .error _ => s

theorem wordEffect_of_decode (h : decodeBus (busWord rs false b) = .ok i) : wordEffect rs b = instrEffect i := by
  funext s
  rw [wordEffect, h]

/-- A written word is latched with its effect. -/
theorem latchWord_eq_latch (h : IsWord rs b) (s : State) :
    latchWord (busWord rs false b) s = latch (busWord rs false b) (wordEffect rs b) s := by
  obtain ⟨i, hi⟩ := decodeBus_isWord h
  have henc := encode_of_decodeBus hi
  have hlb : lbWord i = busWord rs false b := by rw [lbWord, henc]
  have hrw : (lbWord i).getLsbD 8 = false := by rw [hlb, busWord_rw]
  rw [wordEffect_of_decode hi, ← hlb, ← deviceExec_eq_latch (format_of_lb henc) hrw, latchWord, hlb, hi]

theorem instrEffect_deviceWrites (i : Instr) (s : State) : DeviceWrites s (instrEffect i s) := by
  cases i with
  | cursorDisplayShift sc rl _ => exact cursorShiftEffect_deviceWrites sc rl s
  | setDdramAddr a => exact ddramAddrEffect_deviceWrites a s
  | writeData b => exact writeDataEffect_deviceWrites b s
  | _ => exact ⟨_, _, _, rfl⟩

theorem wordEffect_deviceWrites (rs : Bool) (b : Byte) (s : State) : DeviceWrites s (wordEffect rs b s) := by
  unfold wordEffect
  split
  · exact instrEffect_deviceWrites _ s
  · exact ⟨_, _, _, rfl⟩

/-! ### A word's effect goes by the display alone -/

/-- The display of `u`, with the stamp of the free values, in the machine of `s`. -/
def State.withDisplay (s u : State) : State := { s with dev := u.dev, vram := u.vram, draws := u.draws }

/-- `t` has the display and the stamp of `u`. -/
structure SameDisplay (t u : State) : Prop where
  dev : t.dev = u.dev
  vram : t.vram = u.vram
  draws : t.draws = u.draws

theorem SameDisplay.trans {v : State} (h : SameDisplay t u) (h' : SameDisplay u v) : SameDisplay t v :=
  ⟨h.dev.trans h'.dev, h.vram.trans h'.vram, h.draws.trans h'.draws⟩

theorem SameDisplay.withDisplay (h : SameDisplay t u) : t.withDisplay u = t := by
  rw [State.withDisplay, ← h.dev, ← h.vram, ← h.draws]

theorem strayCursor_withDisplay (s u : State) : (s.withDisplay u).strayCursor = s.withDisplay u.strayCursor := by
  unfold State.strayCursor
  by_cases h : u.dev.n = true <;> simp [State.withDisplay, h]

theorem instrEffect_withDisplay (i : Instr) (s u : State) :
    instrEffect i (s.withDisplay u) = s.withDisplay (instrEffect i u) := by
  cases i with
  | cursorDisplayShift sc rl _ => cases sc <;> rfl
  | setDdramAddr a =>
    simp only [instrEffect, ddramAddrEffect]
    split <;> rfl
  | writeData b =>
    have hspace : (s.withDisplay u).dev.space = u.dev.space := rfl
    simp only [instrEffect, writeDataEffect, hspace]
    cases u.dev.space <;> rfl
  | _ => rfl

theorem wordEffect_withDisplay (rs : Bool) (b : Byte) (s u : State) :
    wordEffect rs b (s.withDisplay u) = s.withDisplay (wordEffect rs b u) := by
  unfold wordEffect
  split
  · exact instrEffect_withDisplay _ s u
  · rfl

/-- What a written word makes of the display (R220 to R231). -/
def State.takes (s : State) (rs : Bool) (b : Byte) : State := (wordEffect rs b s).strayCursor

theorem takes_sameDisplay (h : SameDisplay t u) (rs : Bool) (b : Byte) :
    SameDisplay (t.takes rs b) (u.takes rs b) := by
  rw [← h.withDisplay, State.takes, wordEffect_withDisplay, strayCursor_withDisplay]
  exact ⟨rfl, rfl, rfl⟩

/-- A device that is free and in 8-bit mode takes it. -/
theorem latchWord_taken (h : IsWord rs b) (hfree : s.devBusy = .free) (hwide : s.dev.nibble = false) :
    latchWord (busWord rs false b) s = .next ((s.latched (busWord rs false b)).takes rs b) := by
  rw [latchWord_eq_latch h, latch_taken hwide hfree]
  rfl

end Sys2Proof.Machine
end

section
/-! PROOFS. The statements of 41_lcd_ops: one word written (R181 to R185), in a turn that is not pre-empted. -/

namespace Sys2Proof.Machine

variable {s t u v : State} {i : Instr} {m : Micro} {ms : List Micro} {j k n : Nat} {q : Option Nat} {rs : Bool} {b : Byte}
  {l : Layout} {w : Word}

/-! ### Micro-steps of the LCD in a turn that is not pre-empted (R273, R275) -/

/-- A quiet port that keeps its clock and the keypad's directions stays quiet: the LCD's lines stand on other pins than
the keypad's (R48, R314). -/
theorem quiet_of_lcdKept (h : LcdKept s t) (ho : t.outsideMicro = s.outsideMicro) (hpr : t.regs.pr = s.regs.pr)
    (hclk : s.regs.clken.getLsbD s.cfg.layout.clkKpdPort.val = true →
      t.regs.clken.getLsbD s.cfg.layout.clkKpdPort.val = true)
    (hmode : t.regs.mode.extractLsb' 0 16 = s.regs.mode.extractLsb' 0 16) (hq : Quiet s) : Quiet t := by
  have hc := h.cfg
  have hmux : t.regs.mux = s.regs.mux := h.kept (·.regs.mux)
  have hpull : t.regs.pull = s.regs.pull := h.kept (·.regs.pull)
  have hrtsr : t.regs.rtsr = s.regs.rtsr := h.kept (·.regs.rtsr)
  have himr : t.regs.imr = s.regs.imr := h.kept (·.regs.imr)
  have hirqen : t.regs.irqen = s.regs.irqen := h.kept (·.regs.irqen)
  have hkeys : t.keys = s.keys := (congrArg State.keys ho :)
  have hstill : t.bouncing = s.bouncing := (congrArg State.bouncing ho :)
  have hsound : t.spoiled = s.spoiled := (congrArg State.spoiled ho :)
  have hlvl : t.lvl = s.lvl := (congrArg State.lvl ho :)
  have hodr : t.regs.odr.extractLsb' 0 8 = s.regs.odr.extractLsb' 0 8 := by
    cases hs : s.cfg.lcdShares with
    | false => rw [h.odr hs]
    | true => exact sharedOdr_kept h hq.wired hs
  have hidle : requesting t = requesting s := by simp only [requesting, req, hpr, himr, hirqen, hc]
  refine ⟨hc ▸ hq.wired, ?_, ⟨hstill.trans hq.calm.still, hsound.trans hq.calm.sound, fun c => ?_⟩, hidle.trans hq.idle⟩
  · exact
      { clock := by rw [hc]; exact hclk hq.armed.clock
        mode := by rw [hmode, hc]; exact hq.armed.mode
        pull := by rw [hpull]; exact hq.armed.pull
        odr := by rw [hodr]; exact hq.armed.odr
        mux := fun c => by rw [hc, hmux]; exact hq.armed.mux c
        rtsr := by rw [hrtsr]; exact hq.armed.rtsr
        imr := by rw [himr]; exact hq.armed.imr
        irqen := fun c => by rw [hc, hirqen]; exact hq.armed.irqen c }
  · rw [hlvl, hkeys, hq.calm.seen]

theorem quiet_quantum : Quiet { s with quantum := q } ↔ Quiet s :=
  ⟨fun h => ⟨h.wired, { h.armed with }, { h.calm with }, h.idle⟩,
    fun h => ⟨h.wired, { h.armed with }, { h.calm with }, h.idle⟩⟩

/-- What the LCD's commands write does not pre-empt. -/
theorem RunsFor.lcdKept (h : RunsFor n { s with quantum := q }) (hk : LcdKept s t) (hquiet : Quiet s → Quiet t) :
    RunsFor n { t with quantum := q } := by
  rcases h with hbounded | ⟨hnone, hu | hq⟩
  · exact .inl hbounded
  · refine .inr ⟨hnone, .inl fun c => ?_⟩
    have hdelivered := hu c
    have himr : t.regs.imr = s.regs.imr := hk.kept (·.regs.imr)
    have hirqen : t.regs.irqen = s.regs.irqen := hk.kept (·.regs.irqen)
    simpa only [himr, hirqen, hk.cfg] using hdelivered
  · exact .inr ⟨hnone, .inr (quiet_quantum.2 (hquiet (quiet_quantum.1 hq)))⟩

/-- One micro-step of an LCD command in a turn that is not pre-empted. -/
theorem runFg_lcd (h : RunsFor (n + 1) { s with quantum := q })
    (hx : micro .fg m { s with fgpos := .inOp i k } = .next t) (hp : m ≠ .pollSlot) (hk : LcdKept s t)
    (hquiet : Quiet s → Quiet t) :
    runFg i k (m :: ms) q s = runFg i (k + 1) ms (spend q) t.settle ∧
      RunsFor n { t.settle with quantum := spend q } :=
  ⟨runFg_cons h.mayRun hx (by simp [pollAgain, hp]), (h.lcdKept hk hquiet).settle⟩

/-- A micro-step of the write protocol is one. -/
theorem runFg_bus (h : RunsFor (n + 1) { s with quantum := q }) (hm : m.isBus = true)
    (hx : micro .fg m { s with fgpos := .inOp i k } = .next t) :
    runFg i k (m :: ms) q s = runFg i (k + 1) ms (spend q) t.settle ∧
      RunsFor n { t.settle with quantum := spend q } ∧ BusKept s t := by
  have hk : BusKept s t := { micro_busKept hm hx with }
  have hpr : t.regs.pr = s.regs.pr := (micro_pr_kept hx fun _ => role_ne_pr_of_isBus hm :)
  have hout : t.outsideMicro = { s with fgpos := .inOp i k }.outsideMicro := micro_outsideMicro hx
  have hquiet : Quiet s → Quiet t := by
    intro hq
    have hq' : Quiet { s with fgpos := .inOp i k } := ⟨hq.wired, { hq.armed with }, { hq.calm with }, hq.idle⟩
    have hk' : LcdKept { s with fgpos := .inOp i k } t := { hk.lcdKept with }
    refine quiet_of_lcdKept hk' hout hpr (fun hc => ?_) ?_ hq'
    · rw [hk.clken]; exact hc
    · rw [show t.regs.mode = s.regs.mode from hk.kept (·.regs.mode)]
  obtain ⟨hrun, hruns⟩ := runFg_lcd (ms := ms) h hx (by rintro rfl; cases hm) hk.lcdKept hquiet
  exact ⟨hrun, hruns, hk⟩

/-! ### The lines (R48, R181, R185) -/

theorem BusKept.drives (h : BusKept s t) (p : PortPin) : lcdDrives t p = lcdDrives s p := by
  rw [lcdDrives, lcdDrives, h.lcdMode, show t.highOut = s.highOut from h.kept (·.highOut)]

theorem BusKept.clocked (h : BusKept s t) (r : Role) : clocked t r = clocked s r := clocked_congr h.cfg h.clken r

/-- After `j` changes of the lines in `s`: the output register holds `w`, and nothing else of the display or its trace
has changed. -/
structure LinesAt (s : State) (j : Nat) (w : Word) (t : State) : Prop where
  kept : BusKept s t
  out : lcdOut t = w
  display : SameDisplay t { s with draws := s.draws + j }
  busy : t.devBusy = s.devBusy
  events : t.events = s.events
  result : t.result = s.result

theorem LinesAt.start (s : State) : LinesAt s 0 (lcdOut s) s := ⟨.refl s, rfl, ⟨rfl, rfl, rfl⟩, rfl, rfl, rfl⟩

theorem busLine_clocked (h : clocked s .lodr = true) (f : Word → Word) : ∃ t, busLine f s = .next t := by
  rcases busLine_cases f s with ⟨-, h'⟩ | ⟨hno, -⟩
  · exact ⟨_, h'⟩
  · rw [h] at hno; cases hno

theorem LinesAt.fgpos (h : LinesAt s j w t) (p : FgPos) : LinesAt s j w { t with fgpos := p } := by
  have hout : lcdOut { t with fgpos := p } = lcdOut t := lcdOut_congr (by rfl) (by rfl) (by rfl)
  exact ⟨{ h.kept with }, hout.trans h.out, { h.display with }, h.busy, h.events, h.result⟩

/-- A line's change, before the re-evaluation that ends its micro-step. -/
theorem LinesAt.changed {f : Word → Word} (h : LinesAt s j w t) (hf : MovesLines s.cfg.layout f)
    (hx : busLine f t = .next u) : LinesAt s j (f w) u := by
  have hkept : BusKept t u := busLine_busKept (h.kept.cfg ▸ hf) hx
  have hout : lcdOut u = f w := h.out ▸ busLine_lcdOut hx
  rw [busLine_next hx] at hkept hout ⊢
  exact ⟨h.kept.trans hkept, hout, { h.display with }, h.busy, h.events, h.result⟩

theorem LinesAt.settle (h : LinesAt s j w t) : LinesAt s (j + 1) w t.settle := by
  have hout : lcdOut t.settle = lcdOut t := lcdOut_congr rfl rfl rfl
  exact ⟨h.kept.trans (settle_busKept t), hout.trans h.out,
    ⟨h.display.dev, h.display.vram, congrArg (· + 1) h.display.draws⟩, h.busy, h.events, h.result⟩

/-- One of W1 to W4: a micro-step that changes the lines and latches nothing. -/
theorem runFg_lines {f : Word → Word} (h : LinesAt s j w t) (hclk : clocked s .lodr = true)
    (hruns : RunsFor (n + 1) { t with quantum := q }) (hm : m.isBus = true) (hf : MovesLines s.cfg.layout f)
    (hx : ∀ u : State, u.cfg = s.cfg → micro .fg m u = busLine f u) :
    ∃ u, runFg i k (m :: ms) q t = runFg i (k + 1) ms (spend q) u ∧ RunsFor n { u with quantum := spend q } ∧
      LinesAt s (j + 1) (f w) u := by
  have hpos := h.fgpos (.inOp i k)
  obtain ⟨u, hu⟩ := busLine_clocked ((hpos.kept.clocked .lodr).trans hclk) f
  obtain ⟨hrun, hruns', -⟩ := runFg_bus (ms := ms) hruns hm ((hx _ hpos.kept.cfg).trans hu)
  exact ⟨_, hrun, hruns', (hpos.changed hf hu).settle⟩

/-- The output register after W1 to W4. -/
def linesBefore (l : Layout) (rs : Bool) (b : Byte) (w : Word) : Word :=
  setData l b (setBit (setBit (setBit w l.lcdE.val true) l.lcdRs.val rs) l.lcdRw.val false)

/-- The output register after W5. -/
def linesWritten (l : Layout) (rs : Bool) (b : Byte) (w : Word) : Word :=
  setBit (linesBefore l rs b w) l.lcdE.val false

/-- With different pins the control lines stand at different bits, and none at a data line's. -/
theorem controlPins_apart (h : l.lcdPins.Nodup) :
    l.lcdRs.val ≠ l.lcdRw.val ∧ l.lcdRs.val ≠ l.lcdE.val ∧ l.lcdRw.val ≠ l.lcdE.val ∧
    ∀ i, (l.dataPin i).val ≠ l.lcdRs.val ∧ (l.dataPin i).val ≠ l.lcdRw.val ∧ (l.dataPin i).val ≠ l.lcdE.val := by
  simp only [Layout.lcdPins, List.nodup_cons, List.mem_cons, not_or] at h
  obtain ⟨⟨hrsrw, hrse, hrsd⟩, ⟨hrwe, hrwd⟩, hed, -⟩ := h
  have hd : ∀ i, l.dataPin i ∈ l.lcdD.toList := fun i => by simp [Layout.dataPin]
  have hne {p : PortPin} (hp : p ∉ l.lcdD.toList) (i : Fin 8) : (l.dataPin i).val ≠ p.val :=
    fun h' => hp (Fin.ext h' ▸ hd i)
  exact ⟨fun h' => hrsrw (Fin.ext h'), fun h' => hrse (Fin.ext h'), fun h' => hrwe (Fin.ext h'),
    fun i => ⟨hne hrsd i, hne hrwd i, hne hed i⟩⟩

/-- `E` is at 1 before W5. -/
theorem linesBefore_enable (h : l.lcdPins.Nodup) (rs : Bool) (b : Byte) (w : Word) :
    (linesBefore l rs b w).getLsbD l.lcdE.val = true := by
  obtain ⟨-, hrse, hrwe, hd⟩ := controlPins_apart h
  rw [linesBefore, setData_other _ _ fun i => (hd i).2.2, setBit_getLsbD, if_neg hrwe.symm, setBit_getLsbD,
    if_neg hrse.symm, setBit_getLsbD, if_pos rfl, Bool.true_and, decide_eq_true l.lcdE.isLt]

/-- A word stands on the lines after W5. -/
theorem linesAfter_written (h : s.cfg.layout.lcdPins.Nodup)
    (ht : lcdOut t = linesWritten s.cfg.layout rs b (lcdOut s)) : LinesAfter rs b s t := by
  obtain ⟨hrsrw, hrse, hrwe, hd⟩ := controlPins_apart h
  refine ⟨?_, ?_, ?_, fun i => ?_, fun n hn => ?_⟩ <;> rw [ht, linesWritten, setBit_getLsbD]
  · rw [if_neg hrse, linesBefore, setData_other _ _ fun i => (hd i).1, setBit_getLsbD, if_neg hrsrw, setBit_getLsbD,
      if_pos rfl, decide_eq_true (Fin.isLt _), Bool.and_true]
  · rw [if_neg hrwe, linesBefore, setData_other _ _ fun i => (hd i).2.1, setBit_getLsbD, if_pos rfl, Bool.false_and]
  · rw [if_pos rfl, Bool.false_and]
  · rw [if_neg (hd i).2.2, linesBefore, setData_at h]
  · rw [if_neg (hn _ (lcdE_mem _)).symm, linesBefore, movesLines_setData _ b _ n hn,
      movesLines_setBit (lcdRw_mem _) false _ n hn, movesLines_setBit (lcdRs_mem _) rs _ n hn,
      movesLines_setBit (lcdE_mem _) true _ n hn]

/-- W1 to W4. -/
theorem runFg_linesBefore (h : clocked s .lodr = true) (hruns : RunsFor (n + 4) { s with quantum := q }) :
    ∃ q' u, runFg i k (.busE true :: .busRs rs :: .busRw false :: .busD b :: ms) q s = runFg i (k + 4) ms q' u ∧
      RunsFor n { u with quantum := q' } ∧ LinesAt s 4 (linesBefore s.cfg.layout rs b (lcdOut s)) u := by
  obtain ⟨u1, hrun1, hruns1, h1⟩ := runFg_lines (m := .busE true) (i := i) (k := k)
    (ms := .busRs rs :: .busRw false :: .busD b :: ms) (.start s) h hruns rfl
    (movesLines_setBit (lcdE_mem s.cfg.layout) true) (fun u hu => by rw [micro, busEnable_quiet (by simp), hu])
  obtain ⟨u2, hrun2, hruns2, h2⟩ := runFg_lines (m := .busRs rs) (i := i) (k := k + 1)
    (ms := .busRw false :: .busD b :: ms) h1 h hruns1 rfl
    (movesLines_setBit (lcdRs_mem s.cfg.layout) rs) (fun u hu => by rw [micro, hu])
  obtain ⟨u3, hrun3, hruns3, h3⟩ := runFg_lines (m := .busRw false) (i := i) (k := k + 2) (ms := .busD b :: ms) h2 h
    hruns2 rfl (movesLines_setBit (lcdRw_mem s.cfg.layout) false) (fun u hu => by rw [micro, hu])
  obtain ⟨u4, hrun4, hruns4, h4⟩ := runFg_lines (m := .busD b) (i := i) (k := k + 3) (ms := ms) h3 h hruns3 rfl
    (movesLines_setData s.cfg.layout b) (fun u hu => by rw [micro, hu])
  exact ⟨_, u4, hrun1.trans (hrun2.trans (hrun3.trans hrun4)), hruns4, h4⟩

/-! ### The latch and the settle delay (R183, R220, R221) -/

/-- What one written word makes of the display: four evaluations come before the latch, two after it (R181; log 4). -/
def State.afterWord (s : State) (rs : Bool) (b : Byte) : State :=
  let u := ({ s with draws := s.draws + 4 } : State).takes rs b
  { u with draws := u.draws + 2 }

theorem sameDisplay_afterWord (h : SameDisplay u (({ s with draws := s.draws + 4 } : State).takes rs b)) :
    SameDisplay { u with draws := u.draws + 2 } (s.afterWord rs b) := by
  obtain ⟨hdev, hvram, hdraws⟩ := h
  simp only [State.afterWord, ← hdev, ← hvram, ← hdraws]
  exact ⟨rfl, rfl, rfl⟩

/-- The word `rs, b` was written and its settle delay is over. -/
structure Sent (rs : Bool) (b : Byte) (s t : State) : Prop where
  kept : BusKept s t
  lines : LinesAfter rs b s t
  events : t.events = s.events ++ [.latch (busWord rs false b), .delay (settleTime s.cfg rs b)]
  busy : t.devBusy = busyAfter s.cfg (busyClass (busWord rs false b)) (settleTime s.cfg rs b)
  display : SameDisplay t (s.afterWord rs b)

theorem takes_deviceWrites (s : State) (rs : Bool) (b : Byte) : DeviceWrites s (s.takes rs b) :=
  (wordEffect_deviceWrites rs b s).trans (strayCursor_deviceWrites _)

/-- The lines show the word, where all of them are driven. -/
theorem busLevels_written (hd : ∀ p ∈ s.cfg.layout.lcdPins, lcdDrives s p = true) (h : LinesAfter rs b s t)
    (hk : BusKept s t) : busLevels t = busWord rs false b := by
  have hdrive : ∀ p ∈ s.cfg.layout.lcdPins, lcdDrives t p = true := fun p hp => (hk.drives p).trans (hd p hp)
  have hdata : ∀ i, (lcdOut t).getLsbD (t.cfg.layout.dataPin i).val = b.getLsbD i.val := fun i => by rw [hk.cfg, h.d]
  rw [busLevels_driven ?_ ?_ (fun i => ?_) hdata, hk.cfg, h.rs, h.rw] <;> rw [hk.cfg]
  · exact hdrive _ (lcdRs_mem _)
  · exact hdrive _ (lcdRw_mem _)
  · exact hdrive _ (dataPin_mem _ i)

/-- W5: `E` falls and the device takes the word. -/
theorem busEnable_latches (hw : s.cfg.layout.lcdPins.Nodup) (hcan : LcdCan s) (h0 : IsWord rs b)
    (h : LinesAt s j (linesBefore s.cfg.layout rs b (lcdOut s)) t) :
    ∃ v, LinesAt s j (linesWritten s.cfg.layout rs b (lcdOut s)) v ∧
      busEnable false t = .next ((v.latched (busWord rs false b)).takes rs b) := by
  obtain ⟨v, hv⟩ := busLine_clocked ((h.kept.clocked .lodr).trans hcan.clock)
    (fun w => setBit w t.cfg.layout.lcdE.val false)
  have hmoves : MovesLines s.cfg.layout (fun w => setBit w t.cfg.layout.lcdE.val false) := by
    rw [h.kept.cfg]
    exact movesLines_setBit (lcdE_mem _) false
  have hlines := h.changed hmoves hv
  rw [h.kept.cfg] at hlines
  have henable : enableHigh t = true := by
    rw [enableHigh, h.kept.drives, h.kept.cfg, hcan.out _ (lcdE_mem _), h.out, linesBefore_enable hw, Bool.true_and]
  have hlevels : busLevels v = busWord rs false b :=
    busLevels_written hcan.out (linesAfter_written hw hlines.out) hlines.kept
  refine ⟨v, hlines, ?_⟩
  rw [busEnable_falls henable hv, hlevels, latchWord_taken h0 (hlines.busy.trans hcan.free)]
  rw [hlines.display.dev]
  exact hcan.wide

/-- After W5, its re-evaluation, W6 and that one's. -/
theorem sent_of_latched (hw : s.cfg.layout.lcdPins.Nodup)
    (h : LinesAt s 4 (linesWritten s.cfg.layout rs b (lcdOut s)) v)
    (hu : (v.latched (busWord rs false b)).takes rs b = u) (p : FgPos)
    (hk : BusKept s (State.settleDelay { u.settle with fgpos := p } rs b).settle) :
    Sent rs b s (State.settleDelay { u.settle with fgpos := p } rs b).settle ∧ u.result = s.result := by
  obtain ⟨_, _, _, htakes⟩ := takes_deviceWrites (v.latched (busWord rs false b)) rs b
  rw [hu] at htakes
  have hcfg : u.cfg = s.cfg := by rw [htakes]; exact h.kept.cfg
  have hodr : u.regs.odr = v.regs.odr := by rw [htakes]; rfl
  have hlodr : u.regs.lodr = v.regs.lodr := by rw [htakes]; rfl
  have hevents : u.events = s.events ++ [.latch (busWord rs false b)] := by
    rw [htakes]; exact congrArg (· ++ [Event.latch (busWord rs false b)]) h.events
  have hbusy : u.devBusy = busyClass (busWord rs false b) := by rw [htakes]; rfl
  have hout : lcdOut (State.settleDelay { u.settle with fgpos := p } rs b).settle = lcdOut v := by
    apply lcdOut_congr
    · simpa using hcfg.trans h.kept.cfg.symm
    · simpa using hodr
    · simpa using hlodr
  have hsame : SameDisplay u (({ s with draws := s.draws + 4 } : State).takes rs b) :=
    hu ▸ takes_sameDisplay (t := v.latched (busWord rs false b)) { h.display with } rs b
  obtain ⟨hdev, hvram, hdraws⟩ := sameDisplay_afterWord hsame
  refine ⟨⟨hk, linesAfter_written hw (hout.trans h.out), ?_, ?_, ⟨?_, ?_, ?_⟩⟩, ?_⟩
  · simp [hevents, hcfg]
  · simp [hbusy, hcfg, busyAfter]
  · simpa using hdev
  · simpa using hvram
  · simpa using hdraws
  · rw [htakes]
    exact h.result

/-- A word is written (R181): its six micro-steps, in a turn that is not pre-empted, by a sequencer that can drive the
device. -/
theorem runFg_writeByte (hw : s.cfg.layout.lcdPins.Nodup) (hcan : LcdCan s) (h0 : IsWord rs b)
    (hruns : RunsFor (n + 6) { s with quantum := q }) :
    ∃ q' t, runFg i k (writeByte rs b ++ ms) q s = runFg i (k + 6) ms q' t ∧ RunsFor n { t with quantum := q' } ∧
      Sent rs b s t ∧ t.result = s.result := by
  obtain ⟨q4, u4, hrun4, hruns4, h4⟩ := runFg_linesBefore (n := n + 2) (rs := rs) (b := b) (i := i) (k := k)
    (ms := .busE false :: .settleDelay rs b :: ms) hcan.clock hruns
  obtain ⟨v, hv, hx5⟩ := busEnable_latches hw hcan h0 (h4.fgpos (.inOp i (k + 4)))
  obtain ⟨hrun5, hruns5, hk5⟩ := runFg_bus (ms := .settleDelay rs b :: ms) hruns4 (m := .busE false) rfl hx5
  generalize hu : (v.latched (busWord rs false b)).takes rs b = u at hrun5 hruns5 hk5
  obtain ⟨hrun6, hruns6, hk6⟩ := runFg_bus (i := i) (k := k + 5) (ms := ms) hruns5 (m := .settleDelay rs b) rfl rfl
  exact ⟨_, _, hrun4.trans (hrun5.trans hrun6), hruns6, sent_of_latched hw hv hu _
    (h4.kept.trans (hk5.trans ((settle_busKept u).trans (hk6.trans (settle_busKept _)))))⟩

end Sys2Proof.Machine
end

section
/-! PROOFS. The statements of 41_lcd_ops: the commands of one word (R187, R188, R191 to R194). -/

namespace Sys2Proof.Machine

variable {s t u : State} {i : Instr} {rs : Bool} {b : Byte} {checks : State → Option Refusal}

/-! ### Completion of one word -/

theorem afterWord_sameDisplay (h : SameDisplay t u) (rs : Bool) (b : Byte) :
    SameDisplay (t.afterWord rs b) (u.afterWord rs b) := by
  have hstart : SameDisplay { t with draws := t.draws + 4 } { u with draws := u.draws + 4 } :=
    ⟨h.dev, h.vram, congrArg (· + 4) h.draws⟩
  exact sameDisplay_afterWord (takes_sameDisplay hstart rs b)

theorem lcdPins_nodup {c : Config} (hw : c.Wired) : c.layout.lcdPins.Nodup := by
  obtain ⟨-, ⟨-, -, h, -⟩, -⟩ := hw
  exact h

/-- A command whose program is one word completes, with the word sent. -/
theorem hostCommand_word (hidle : FgIdle s) (hc : checks s = none) (hw : s.cfg.Wired) (hcan : LcdCan s)
    (h0 : IsWord rs b) (hruns : RunsFor 6 s) :
    ∃ t, hostCommand i checks (writeByte rs b) s = .next t ∧ Wrote s t [(rs, b)] ∧ Sent rs b s t := by
  have hcan' : LcdCan { s.turnOver with result := none } := { hcan with }
  obtain ⟨q, t, hrun, -, hsent, hresult⟩ := runFg_writeByte (s := { s.turnOver with result := none }) (n := 0) (i := i)
    (k := 1) (ms := []) (lcdPins_nodup hw) hcan' h0 hruns.accepted
  rw [List.append_nil, runFg_done] at hrun
  have haccepted : SameDisplay { s.turnOver with result := none } s := ⟨rfl, rfl, rfl⟩
  have hdisplay := hsent.display.trans (afterWord_sameDisplay haccepted rs b)
  exact ⟨_, (hostCommand_accepted hidle hc).trans hrun, ⟨hsent.events, rfl, hresult⟩,
    ⟨{ hsent.kept with }, { hsent.lines with }, hsent.events, hsent.busy, { hdisplay with }⟩⟩

/-! ### Instruction words (R107, R223 to R227) -/

theorem afterWord_dev (s : State) (rs : Bool) (b : Byte) :
    (s.afterWord rs b).dev = (({ s with draws := s.draws + 4 } : State).takes rs b).dev := by rw [State.afterWord]

theorem afterWord_vram (s : State) (rs : Bool) (b : Byte) :
    (s.afterWord rs b).vram = (({ s with draws := s.draws + 4 } : State).takes rs b).vram := by rw [State.afterWord]

/-- What instruction `i` makes of the display when its word is written. -/
def State.afterInstr (s : State) (i : Instr) : State :=
  (instrEffect i { s with draws := s.draws + 4 }).strayCursor

/-- A word that decodes to `i` has its effect. -/
theorem Sent.instr (h : Sent rs b s t) (hd : decodeBus (busWord rs false b) = .ok i) :
    t.dev = (s.afterInstr i).dev ∧ t.vram = (s.afterInstr i).vram := by
  rw [h.display.dev, h.display.vram, afterWord_dev, afterWord_vram, State.takes, wordEffect_of_decode hd,
    State.afterInstr]
  exact ⟨rfl, rfl⟩

theorem decode_clear : decodeBus (busWord false false 0x01) = .ok .clearDisplay := rfl

theorem decode_home : decodeBus (busWord false false 0x02) = .ok (.returnHome false) := rfl

/-- Clearing gives spaces in DDRAM and keeps CGRAM (R223). -/
theorem memRead_clearDdram (m : Memory) (a : Nat) :
    memRead (memClearDdram m) a = if a < 0x100 then 0x20 else memRead m a := by
  rw [memClearDdram, memRead_filter (fun x => decide (0x100 ≤ x)), blank]
  by_cases h : a < 0x100
  · simp [h, Nat.not_le.2 h]
  · simp [h, Nat.le_of_not_lt h]

/-- In two-line mode a word leaves the cursor where its effect puts it (R228). -/
theorem strayCursor_cursor (h : s.dev.n = true) : s.strayCursor.dev.cursor = s.dev.cursor := by
  rw [strayCursor_of_twoLine s h]

/-- Clear leaves spaces in DDRAM, CGRAM as before, no shift, `ID = 1`, and the cursor home in two-line mode (R223), -/
theorem afterInstr_clear (s : State) :
    (∀ a, memRead (s.afterInstr .clearDisplay).vram a = if a < 0x100 then 0x20 else memRead s.vram a) ∧
    (s.afterInstr .clearDisplay).dev.space = .ddram ∧ (s.afterInstr .clearDisplay).dev.shift = 0 ∧
    (s.afterInstr .clearDisplay).dev.id = true ∧
    (s.dev.n = true → (s.afterInstr .clearDisplay).dev.cursor = { col := 0, row := 0 }) := by
  rw [State.afterInstr]
  refine ⟨fun a => ?_, strayCursor_dev_space _, strayCursor_dev_shift _, strayCursor_dev_id _,
    fun hn => strayCursor_cursor hn⟩
  rw [strayCursor_vram]
  exact memRead_clearDdram s.vram a

/-- and home leaves all bytes (R224). -/
theorem afterInstr_home (s : State) (x : Bool) :
    (s.afterInstr (.returnHome x)).vram = s.vram ∧
    (s.afterInstr (.returnHome x)).dev.space = .ddram ∧ (s.afterInstr (.returnHome x)).dev.shift = 0 ∧
    (s.dev.n = true → (s.afterInstr (.returnHome x)).dev.cursor = { col := 0, row := 0 }) := by
  rw [State.afterInstr]
  exact ⟨strayCursor_vram _, strayCursor_dev_space _, strayCursor_dev_shift _, fun hn => strayCursor_cursor hn⟩

/-- The display's flags are the word's, and all else of the display is kept in two-line mode (R226). -/
theorem afterInstr_displayControl (s : State) (d c b : Bool) :
    (s.afterInstr (.displayControl d c b)).vram = s.vram ∧
    (s.afterInstr (.displayControl d c b)).dev.d = d ∧ (s.afterInstr (.displayControl d c b)).dev.c = c ∧
    (s.afterInstr (.displayControl d c b)).dev.b = b ∧
    (s.dev.n = true → (s.afterInstr (.displayControl d c b)).dev.cursor = s.dev.cursor) := by
  rw [State.afterInstr]
  exact ⟨strayCursor_vram _, strayCursor_dev_d _, strayCursor_dev_c _, strayCursor_dev_b _,
    fun hn => strayCursor_cursor hn⟩

/-- Settles O33: each command is its word, sent (`hostCommand_word`), with the effect R223 or R224 gives it. -/
theorem lcdClearAndHomeComplete : Obligations.LcdClearAndHomeComplete := by
  unfold Obligations.LcdClearAndHomeComplete
  intro s hw hidle hi hcan hruns
  constructor
  · obtain ⟨t, hexec, hwrote, hsent⟩ := hostCommand_word (i := .lcdClear) (rs := false) (b := 0x01) hidle
      (lcdReady_of_lcdInit (op := Instr.lcdClear.opcode) hi) hw hcan (.inr (by decide)) hruns
    obtain ⟨hdev, hvram⟩ := hsent.instr decode_clear
    refine ⟨t, hexec, hwrote, hsent.lines, hsent.busy, ?_⟩
    rw [hdev, hvram]
    exact afterInstr_clear s
  · obtain ⟨t, hexec, hwrote, hsent⟩ := hostCommand_word (i := .lcdHome) (rs := false) (b := 0x02) hidle
      (lcdReady_of_lcdInit (op := Instr.lcdHome.opcode) hi) hw hcan (.inr (by decide)) hruns
    obtain ⟨hdev, hvram⟩ := hsent.instr decode_home
    obtain ⟨hmem, hrest⟩ := afterInstr_home s false
    refine ⟨t, hexec, hwrote, hsent.lines, hsent.busy, fun a => ?_, ?_⟩
    · rw [hvram, hmem]
    · rw [hdev]
      exact hrest

/-- Settles O34: the two words of R226, which differ in `C`. -/
theorem lcdCursorShowAndHideComplete : Obligations.LcdCursorShowAndHideComplete := by
  unfold Obligations.LcdCursorShowAndHideComplete
  intro s hw hidle hi hcan hruns
  constructor
  · obtain ⟨t, hexec, hwrote, hsent⟩ := hostCommand_word (i := .lcdCursorShow) (rs := false) (b := 0x0F) hidle
      (lcdReady_of_lcdInit (op := Instr.lcdCursorShow.opcode) hi) hw hcan (.inr (by decide)) hruns
    obtain ⟨hdev, hvram⟩ := hsent.instr (i := .displayControl true true true) rfl
    obtain ⟨hmem, hrest⟩ := afterInstr_displayControl s true true true
    refine ⟨t, hexec, hwrote, hsent.lines, hsent.busy, fun a => ?_, ?_⟩
    · rw [hvram, hmem]
    · rw [hdev]
      exact hrest
  · obtain ⟨t, hexec, hwrote, hsent⟩ := hostCommand_word (i := .lcdCursorHide) (rs := false) (b := 0x0D) hidle
      (lcdReady_of_lcdInit (op := Instr.lcdCursorHide.opcode) hi) hw hcan (.inr (by decide)) hruns
    obtain ⟨hdev, hvram⟩ := hsent.instr (i := .displayControl true false true) rfl
    obtain ⟨hmem, hrest⟩ := afterInstr_displayControl s true false true
    refine ⟨t, hexec, hwrote, hsent.lines, hsent.busy, fun a => ?_, ?_⟩
    · rw [hvram, hmem]
    · rw [hdev]
      exact hrest

/-! ### Raw writes (R182, R187, R188, R220) -/

/-- A value of one byte is sent, -/
theorem writeBus_byte {v : Word} (h : v.toNat ≤ 0xFF) (rs : Bool) : writeBus rs v = writeByte rs (v.setWidth 8) := by
  rw [writeBus, if_neg (by omega)]

/-- and a wider one is dropped. -/
theorem writeBus_wide {v : Word} (h : 0xFF < v.toNat) (rs : Bool) : writeBus rs v = [] := by
  rw [writeBus, if_pos h]

theorem setWidth_ne_zero {v : Word} (h : v.toNat ≤ 0xFF) (h0 : v ≠ 0) : (v.setWidth 8 : Byte) ≠ 0 := by
  intro hb
  apply h0
  apply BitVec.eq_of_toNat_eq
  have := congrArg BitVec.toNat hb
  rw [BitVec.toNat_setWidth, Nat.mod_eq_of_lt (by omega)] at this
  exact this

/-- A word sent has the effect that latching it has (R220). -/
theorem Sent.latchWord (h : Sent rs b s t) (h0 : IsWord rs b) (hcan : LcdCan s) :
    ∃ u, latchWord (busWord rs false b) { s with draws := s.draws + 4 } = .next u ∧ t.dev = u.dev ∧ t.vram = u.vram := by
  have hsame := takes_sameDisplay (t := State.latched { s with draws := s.draws + 4 } (busWord rs false b))
    (u := { s with draws := s.draws + 4 }) ⟨rfl, rfl, rfl⟩ rs b
  refine ⟨_, latchWord_taken h0 hcan.free hcan.wide, ?_, ?_⟩
  · rw [hsame.dev, h.display.dev, afterWord_dev]
  · rw [hsame.vram, h.display.vram, afterWord_vram]

/-- A program without a micro-step does nothing. -/
theorem hostCommand_nothing (hidle : FgIdle s) (hc : checks s = none) :
    hostCommand i checks [] s = .next { s.turnOver with result := none } := by
  rw [hostCommand_accepted hidle hc, runFg_done, ← hidle.2]
  rfl

/-- Settles O39: a byte is its word, sent; a wider value is a program without a micro-step. -/
theorem rawWritesSendOneWord : Obligations.RawWritesSendOneWord := by
  unfold Obligations.RawWritesSendOneWord
  intro s v hw hidle hi
  have hinstr : v ≠ 0 → writeInstrChecks v s = none := fun h0 => (writeInstrChecks_of_lcdInit hi v).trans (if_neg h0)
  have hdata : lcdReady (Instr.lcdWriteData v).opcode s = none := lcdReady_of_lcdInit hi
  refine ⟨fun hcan hruns h0 hv => ?_, fun hcan hruns hv => ?_, fun hv => ⟨?_, ?_⟩⟩
  · have hword : IsWord false (v.setWidth 8) := .inr (setWidth_ne_zero hv h0)
    obtain ⟨t, hexec, hwrote, hsent⟩ := hostCommand_word (i := .lcdWriteInstr v) hidle (hinstr h0) hw hcan hword hruns
    rw [← writeBus_byte hv] at hexec
    obtain ⟨u, hu⟩ := hsent.latchWord hword hcan
    exact ⟨t, u, hexec, hwrote, hu⟩
  · have hword : IsWord true (v.setWidth 8) := .inl rfl
    obtain ⟨t, hexec, hwrote, hsent⟩ := hostCommand_word (i := .lcdWriteData v) hidle hdata hw hcan hword hruns
    rw [← writeBus_byte hv] at hexec
    obtain ⟨u, hu⟩ := hsent.latchWord hword hcan
    exact ⟨t, u, hexec, hwrote, hu⟩
  · have h0 : v ≠ 0 := by rintro rfl; simp at hv
    rw [exec, execLcdWriteInstr, lcdWriteInstrProgram, writeBus_wide hv, hostCommand_nothing hidle (hinstr h0)]
  · rw [exec, execLcdWriteData, lcdWriteDataProgram, writeBus_wide hv, hostCommand_nothing hidle hdata]

end Sys2Proof.Machine
end

section
/-! PROOFS. The statements of 41_lcd_ops: words written one after the other, and `LCD_CURSOR_SET` (R183, R195 to R198,
R242). -/

namespace Sys2Proof.Machine

variable {s t u : State} {i : Instr} {ms : List Micro} {k n : Nat} {q : Option Nat} {rs : Bool} {b : Byte}
  {ws : List (Bool × Byte)} {checks : State → Option Refusal}

/-! ### Words one after the other -/

/-- A delay that covers the device's times frees it (R183). -/
theorem covers_settleTime {c : Config} (h : DelaysCover c) (rs : Bool) (b : Byte) :
    covers c (busyClass (busWord rs false b)) (settleTime c rs b) = true := by
  obtain ⟨hshort, hlong⟩ := h
  cases rs with
  | true =>
    rw [busyClass_char, settleTime_char]
    exact decide_eq_true hshort
  | false =>
    rw [busyClass_instr, settleTime_instr]
    split
    · exact decide_eq_true hlong
    · exact decide_eq_true hshort

/-- A word that leaves the device in 8-bit mode (R228). -/
structure SafeWord (p : Bool × Byte) : Prop where
  isWord : IsWord p.1 p.2
  wide : ∀ s : State, (s.takes p.1 p.2).dev.nibble = s.dev.nibble

theorem safeWord_of_decode (h0 : IsWord rs b) (hd : decodeBus (busWord rs false b) = .ok i)
    (hi : ∀ s, (instrEffect i s).dev.nibble = s.dev.nibble) : SafeWord (rs, b) := by
  refine ⟨h0, fun s => ?_⟩
  rw [State.takes, wordEffect_of_decode hd, strayCursor_dev_nibble, hi]

/-- After a safe word the sequencer can write the next. -/
theorem Sent.lcdCan (h : Sent rs b s t) (hcan : LcdCan s) (hcov : DelaysCover s.cfg) (hsafe : SafeWord (rs, b)) :
    LcdCan t where
  clock := (h.kept.clocked .lodr).trans hcan.clock
  out p hp := (h.kept.drives p).trans (hcan.out p (h.kept.cfg ▸ hp))
  free := by rw [h.busy, busyAfter, if_pos (covers_settleTime hcov rs b)]
  wide := by rw [h.display.dev, afterWord_dev, hsafe.wide]; exact hcan.wide

/-- Words are written one after the other. -/
inductive SentAll : List (Bool × Byte) → State → State → Prop
  | nil (s : State) : SentAll [] s s
  | cons {p : Bool × Byte} {ws : List (Bool × Byte)} {s u t : State} :
      Sent p.1 p.2 s u → SentAll ws u t → SentAll (p :: ws) s t

/-- `WriteBus` for each of the words (R181). -/
def wordsProgram : List (Bool × Byte) → List Micro
  | [] => []
  | p :: ws => writeByte p.1 p.2 ++ wordsProgram ws

theorem SentAll.kept (h : SentAll ws s t) : BusKept s t := by
  induction h with
  | nil s => exact .refl s
  | cons h1 _ ih => exact h1.kept.trans ih

/-- The trace gains each word's latch and delay (R220, R283). -/
theorem SentAll.events (h : SentAll ws s t) : t.events = s.events ++ written s.cfg ws := by
  induction h with
  | nil s => exact (List.append_nil _).symm
  | cons h1 _ ih =>
    rw [ih, h1.events, h1.kept.cfg, List.append_assoc]
    rfl

/-- Safe words are all written, in a turn that is not pre-empted and with delays that cover the device's times. -/
theorem runFg_words (hw : s.cfg.Wired) (hcov : DelaysCover s.cfg) (hsafe : ∀ p ∈ ws, SafeWord p) (hcan : LcdCan s)
    (hruns : RunsFor (n + 6 * ws.length) { s with quantum := q }) :
    ∃ q' t, runFg i k (wordsProgram ws ++ ms) q s = runFg i (k + 6 * ws.length) ms q' t ∧
      RunsFor n { t with quantum := q' } ∧ SentAll ws s t ∧ LcdCan t ∧ t.result = s.result := by
  induction ws generalizing s k q with
  | nil => exact ⟨q, s, rfl, hruns, .nil s, hcan, rfl⟩
  | cons p ws ih =>
    obtain ⟨hp, hrest⟩ := List.forall_mem_cons.1 hsafe
    obtain ⟨q1, u, hrun1, hruns1, hsent, hresult1⟩ := runFg_writeByte (i := i) (k := k) (ms := wordsProgram ws ++ ms)
      (n := n + 6 * ws.length) (lcdPins_nodup hw) hcan hp.isWord hruns
    have hcfg := hsent.kept.cfg
    obtain ⟨q2, t, hrun2, hruns2, hall, hcan2, hresult2⟩ := ih (k := k + 6) (hcfg ▸ hw) (hcfg ▸ hcov) hrest
      (hsent.lcdCan hcan hcov hp) hruns1
    refine ⟨q2, t, ?_, hruns2, .cons hsent hall, hcan2, hresult2.trans hresult1⟩
    have hlength : k + 6 + 6 * ws.length = k + 6 * (ws.length + 1) := by omega
    rw [wordsProgram, List.append_assoc, hrun1, hrun2, List.length_cons, hlength]

/-- A command whose program is safe words completes, with all of them sent. -/
theorem hostCommand_words (hidle : FgIdle s) (hc : checks s = none) (hw : s.cfg.Wired) (hcov : DelaysCover s.cfg)
    (hsafe : ∀ p ∈ ws, SafeWord p) (hcan : LcdCan s) (hruns : RunsFor (6 * ws.length) s) :
    ∃ t, hostCommand i checks (wordsProgram ws) s = .next { t with fgpos := .idle } ∧
      SentAll ws { s.turnOver with result := none } t ∧ Wrote s { t with fgpos := .idle } ws ∧ t.devBusy = .free := by
  have hcan' : LcdCan { s.turnOver with result := none } := { hcan with }
  obtain ⟨q, t, hrun, -, hall, hcan2, hresult⟩ := runFg_words (s := { s.turnOver with result := none }) (n := 0)
    (i := i) (k := 1) (ms := []) hw hcov hsafe hcan' (by rw [Nat.zero_add]; exact hruns.accepted)
  rw [List.append_nil, runFg_done] at hrun
  exact ⟨t, (hostCommand_accepted hidle hc).trans hrun, hall, ⟨hall.events, rfl, hresult⟩, hcan2.free⟩

/-! ### `LCD_CURSOR_SET` (R195, R198, R242) -/

theorem advance_right {p : Cursor} (h : p.col.val < 39) :
    advance true p = { col := ⟨p.col.val + 1, by omega⟩, row := p.row } := by
  have hcol : p.col + 1 = ⟨p.col.val + 1, by omega⟩ := by
    apply Fin.ext
    rw [Fin.val_add, Fin.val_one, Nat.mod_eq_of_lt (by omega)]
  rw [advance, if_pos rfl, if_pos h, hcol]

/-- Within a row the cursor goes as many columns on. -/
theorem advances_right {p : Cursor} (h : p.col.val + n < 40) :
    advances true n p = { col := ⟨p.col.val + n, h⟩, row := p.row } := by
  induction n generalizing p with
  | zero => rfl
  | succ n ih =>
    have hstep := advance_right (p := p) (by omega)
    rw [advances, hstep, ih (by dsimp only; omega)]
    congr 2
    dsimp only
    omega

theorem advances_add (r : Bool) (m n : Nat) (p : Cursor) : advances r (m + n) p = advances r n (advances r m p) := by
  induction m generalizing p with
  | zero => rw [Nat.zero_add]; rfl
  | succ m ih => rw [Nat.add_right_comm]; exact ih _

/-- A whole row, from its first column to the next row's. -/
theorem advances_row : advances true 40 { col := 0, row := 0 } = { col := 0, row := 1 } := by
  have hend : (0 : Fin 40).val + 39 < 40 := by simp
  rw [advances_add true 39 1, advances_right (p := { col := 0, row := 0 }) hend]
  simp [advances, advance]

/-- From home, `40·y + x` advances reach (x, y): a whole row, then `x` columns. -/
theorem advances_home {x y : Nat} (hx : x < 40) (hy : y < 2) :
    (advances true (40 * y + x) { col := 0, row := 0 }).col.val = x ∧
    (advances true (40 * y + x) { col := 0, row := 0 }).row.val = y := by
  have hrow : advances true (40 * y) { col := 0, row := 0 } = { col := 0, row := ⟨y, hy⟩ } := by
    obtain rfl | rfl : y = 0 ∨ y = 1 := by omega
    · rfl
    · exact advances_row
  have hcol : (0 : Fin 40).val + x < 40 := by simpa using hx
  rw [advances_add, hrow, advances_right hcol]
  simp

theorem wordsProgram_shiftsRight (n : Nat) :
    wordsProgram (List.replicate n (false, iCursorRight)) = shiftsRight n := by
  induction n with
  | zero => rfl
  | succ n ih => rw [List.replicate_succ, wordsProgram, ih, shiftsRight, writeInstr]

/-- Home keeps the mode of the lines (R224). -/
theorem Sent.home_mode (h : Sent false iHome s t) : t.dev.n = s.dev.n := by
  obtain ⟨hdev, -⟩ := h.instr decode_home
  rw [hdev, State.afterInstr]
  exact strayCursor_dev_n _

/-- A cursor shift to the right (R227). -/
theorem Sent.cursorRight (h : Sent false iCursorRight s t) :
    t.vram = s.vram ∧ t.dev.shift = s.dev.shift ∧ t.dev.n = s.dev.n ∧
    (s.dev.n = true → t.dev.cursor = advance true s.dev.cursor) := by
  obtain ⟨hdev, hvram⟩ := h.instr (i := .cursorDisplayShift false true 0) rfl
  rw [hdev, hvram, State.afterInstr]
  exact ⟨strayCursor_vram _, strayCursor_dev_shift _, strayCursor_dev_n _, fun hn => strayCursor_cursor hn⟩

theorem SentAll.cursorRights (h : SentAll (List.replicate n (false, iCursorRight)) s t) :
    t.vram = s.vram ∧ t.dev.shift = s.dev.shift ∧ (s.dev.n = true → t.dev.cursor = advances true n s.dev.cursor) := by
  induction n generalizing s with
  | zero => cases h; exact ⟨rfl, rfl, fun _ => rfl⟩
  | succ n ih =>
    rw [List.replicate_succ] at h
    obtain _ | ⟨h1, hrest⟩ := h
    obtain ⟨hvram, hshift, hmode, hcursor⟩ := h1.cursorRight
    obtain ⟨hvram', hshift', hcursor'⟩ := ih hrest
    refine ⟨hvram'.trans hvram, hshift'.trans hshift, fun hn => ?_⟩
    rw [hcursor' (hmode.trans hn), hcursor hn]
    rfl

theorem safeWord_home : SafeWord (false, iHome) :=
  safeWord_of_decode (.inr (by decide)) decode_home fun _ => rfl

theorem safeWord_cursorRight : SafeWord (false, iCursorRight) :=
  safeWord_of_decode (i := .cursorDisplayShift false true 0) (.inr (by decide)) rfl fun _ => rfl

/-- Settles O37: the home word, then the shifts (`SentAll.cursorRights`), which reach (x, y) (`advances_home`). -/
theorem cursorSetStepsFromHome : Obligations.CursorSetStepsFromHome := by
  unfold Obligations.CursorSetStepsFromHome
  intro s x y hx hy hw hidle hi hcan hcov hruns
  have hc : cursorChecks x y s = none := (cursorChecks_of_lcdInit hi x y).trans (if_pos (by simp [hx, hy]))
  have hsafe : ∀ p ∈ (false, iHome) :: List.replicate (40 * y.toNat + x.toNat) (false, iCursorRight), SafeWord p := by
    refine List.forall_mem_cons.2 ⟨safeWord_home, fun p hp => ?_⟩
    rw [List.eq_of_mem_replicate hp]
    exact safeWord_cursorRight
  obtain ⟨t, hrun, hall, hwrote, hfree⟩ := hostCommand_words (i := .lcdCursorSet x y) hidle hc hw hcov hsafe hcan
    (by rwa [List.length_cons, List.length_replicate, Nat.add_comm])
  rw [wordsProgram, wordsProgram_shiftsRight] at hrun
  obtain _ | ⟨hhome, hshifts⟩ := hall
  obtain ⟨hdev, hvram⟩ := hhome.instr decode_home
  obtain ⟨hmem, -, hshift, hcursor⟩ := afterInstr_home { s.turnOver with result := none } false
  have hmode := hhome.home_mode
  obtain ⟨hvram', hshift', hcursor'⟩ := hshifts.cursorRights
  refine ⟨_, hrun, hwrote, by omega, hfree, fun a => ?_, ?_, fun hn => ?_⟩
  · exact congrArg (memRead · a) (hvram'.trans (hvram.trans hmem))
  · rw [hshift', hdev, hshift]
  · rw [hcursor' (hmode.trans hn), hdev, hcursor hn]
    exact advances_home hx hy

end Sys2Proof.Machine
end

section
/-! PROOFS. The statements of 41_lcd_ops: `LCD_PRINT` (R199, R201, R228, R231, R242, R243). -/

namespace Sys2Proof.Machine

variable {s t u : State} {b : Byte} {str : List Byte} {m : Memory}

/-! ### Writing a byte leaves the others -/

theorem memRead_memInsert_of_ne {a x : Nat} (h : x ≠ a) : memRead (memInsert a b m) x = memRead m x := by
  induction m with
  | nil => simp [memInsert, memRead, h.symm]
  | cons c rest ih =>
    rw [memInsert]
    split
    · rw [memRead, if_neg h.symm]
    · split
      · next heq => rw [memRead, memRead, if_neg h.symm, if_neg (heq ▸ h.symm)]
      · rw [memRead, memRead, ih]

theorem memRead_memWrite_of_ne {a x : Nat} (h : x ≠ a) : memRead (memWrite m a b) x = memRead m x := by
  rw [memWrite]
  split
  · rw [memErase, memRead_filter (fun y => y != a), if_pos (bne_iff_ne.2 h)]
  · exact memRead_memInsert_of_ne h

/-- A byte no character lands on stays: in two-line mode, -/
theorem memRead_printInto {r : Bool} {p : Cursor} {a : Nat}
    (h : ∀ k, k < str.length → a ≠ cursorAddr (advances r k p)) : memRead (printInto r str p m) a = memRead m a := by
  induction str generalizing p m with
  | nil => rfl
  | cons b str ih =>
    rw [printInto, ih fun k hk => h (k + 1) (Nat.succ_lt_succ hk)]
    exact memRead_memWrite_of_ne (h 0 (Nat.zero_lt_succ _))

/-- with the cells given, -/
theorem memRead_printAt {cell : Nat → Cursor} {j a : Nat}
    (h : ∀ k, k < str.length → a ≠ cursorAddr (cell (j + k))) : memRead (printAt cell j str m) a = memRead m a := by
  induction str generalizing j m with
  | nil => rfl
  | cons b str ih =>
    rw [printAt, ih fun k hk => ?_]
    · exact memRead_memWrite_of_ne (h 0 (Nat.zero_lt_succ _))
    · rw [Nat.add_right_comm]
      exact h (k + 1) (Nat.succ_lt_succ hk)

/-- and in CGRAM. -/
theorem memRead_printGlyphs {up : Bool} {period d a : Nat} {g : BitVec 6}
    (h : ∀ k, k < str.length → a ≠ cgramAddr (cgSteps up k g)) :
    memRead (printGlyphs up period d str g m) a = memRead m a := by
  induction str generalizing d g m with
  | nil => rfl
  | cons b str ih =>
    rw [printGlyphs, ih fun k hk => h (k + 1) (Nat.succ_lt_succ hk)]
    exact memRead_memWrite_of_ne (h 0 (Nat.zero_lt_succ _))

/-! ### One character (R231) -/

/-- What a character makes of the display when its word is written. -/
theorem Sent.char (h : Sent true b s t) :
    t.dev = (writeDataEffect b { s with draws := s.draws + 4 }).strayCursor.dev ∧
    t.vram = (writeDataEffect b { s with draws := s.draws + 4 }).strayCursor.vram ∧
    t.draws = (writeDataEffect b { s with draws := s.draws + 4 }).strayCursor.draws + 2 := by
  have htakes : ∀ u : State, u.takes true b = (writeDataEffect b u).strayCursor := fun u => by
    rw [State.takes, wordEffect_of_decode (decodeBus_busWord true false b)]
    rfl
  rw [h.display.dev, h.display.vram, h.display.draws, State.afterWord, htakes]
  exact ⟨rfl, rfl, rfl⟩

/-- A character changes no flag of the device, -/
theorem writeDataEffect_flags (b : Byte) (s : State) :
    (writeDataEffect b s).dev.n = s.dev.n ∧ (writeDataEffect b s).dev.id = s.dev.id ∧
    (writeDataEffect b s).dev.sh = s.dev.sh ∧ (writeDataEffect b s).dev.space = s.dev.space ∧
    (writeDataEffect b s).dev.nibble = s.dev.nibble := by
  rw [writeDataEffect]
  split <;> exact ⟨rfl, rfl, rfl, rfl, rfl⟩

theorem Sent.char_flags (h : Sent true b s t) :
    t.dev.n = s.dev.n ∧ t.dev.id = s.dev.id ∧ t.dev.sh = s.dev.sh ∧ t.dev.space = s.dev.space := by
  obtain ⟨hdev, -⟩ := h.char
  obtain ⟨hn, hid, hsh, hspace, -⟩ := writeDataEffect_flags b { s with draws := s.draws + 4 }
  rw [hdev, strayCursor_dev_n, strayCursor_dev_id, strayCursor_dev_sh, strayCursor_dev_space]
  exact ⟨hn, hid, hsh, hspace⟩

theorem safeWord_char (b : Byte) : SafeWord (true, b) :=
  safeWord_of_decode (.inl rfl) (decodeBus_busWord true false b) fun s => by
    obtain ⟨-, -, -, -, hnibble⟩ := writeDataEffect_flags b s
    exact hnibble

/-- With the display memory selected it lands at the cursor, -/
theorem Sent.char_ddram (h : Sent true b s t) (hspace : s.dev.space = .ddram) :
    t.vram = memWrite s.vram (cursorAddr s.dev.cursor) b ∧
    t.dev.shift = (if s.dev.sh then shiftBy s.dev.id s.dev.shift else s.dev.shift) ∧
    t.dev.cgaddr = s.dev.cgaddr ∧
    (s.dev.n = true → t.dev.cursor = advance s.dev.id s.dev.cursor) ∧
    (s.dev.n = false → t.draws = s.draws + 7 ∧
      t.dev.cursor = { col := Config.freeCol (s.draws + 4), row := Config.freeRow (s.draws + 4) }) := by
  obtain ⟨hdev, hvram, hdraws⟩ := h.char
  rw [hdev, hvram, hdraws, strayCursor_vram, strayCursor_dev_shift, strayCursor_dev_cgaddr]
  refine ⟨?_, ?_, ?_, fun hn => ?_, fun hn => ?_⟩
  · simp [writeDataEffect, hspace]
  · simp [writeDataEffect, hspace]
  · simp [writeDataEffect, hspace]
  · simp [writeDataEffect, hspace, State.strayCursor, hn]
  · simp [writeDataEffect, hspace, State.strayCursor, hn]

/-- and with CGRAM selected, at its address, of which it leaves five bits (I24). -/
theorem Sent.char_cgram (h : Sent true b s t) (hspace : s.dev.space = .cgram) :
    t.vram = memWrite s.vram (cgramAddr s.dev.cgaddr) ((Config.freeGlyph (s.draws + 4) b).setWidth 8) ∧
    t.dev.shift = s.dev.shift ∧ t.dev.cgaddr = cgStep s.dev.id s.dev.cgaddr ∧
    t.draws = s.draws + (if s.dev.n then 7 else 8) := by
  obtain ⟨hdev, hvram, hdraws⟩ := h.char
  rw [hdev, hvram, hdraws, strayCursor_vram, strayCursor_dev_shift, strayCursor_dev_cgaddr]
  refine ⟨?_, ?_, ?_, ?_⟩
  · simp [writeDataEffect, hspace]
  · simp [writeDataEffect, hspace]
  · simp [writeDataEffect, hspace]
  · cases hn : s.dev.n <;> simp [writeDataEffect, hspace, State.strayCursor, hn]

/-! ### A string -/

/-- The words of a string. -/
abbrev chars (str : List Byte) : List (Bool × Byte) := str.map (fun b => (true, b))

theorem SentAll.cons_iff {p : Bool × Byte} {ws : List (Bool × Byte)} :
    SentAll (p :: ws) s t ↔ ∃ u, Sent p.1 p.2 s u ∧ SentAll ws u t := by
  constructor
  · rintro (_ | ⟨h1, h2⟩)
    exact ⟨_, h1, h2⟩
  · rintro ⟨u, h1, h2⟩
    exact .cons h1 h2

theorem SentAll.chars_space (h : SentAll (chars str) s t) : t.dev.space = s.dev.space := by
  induction str generalizing s with
  | nil => cases h; rfl
  | cons b str ih =>
    obtain ⟨u, h1, hrest⟩ := SentAll.cons_iff.1 h
    obtain ⟨-, -, -, hspace⟩ := h1.char_flags
    exact (ih hrest).trans hspace

/-- With the display memory selected the display shifts with `S` set, for each character (R243). -/
theorem SentAll.chars_shift (h : SentAll (chars str) s t) (hspace : s.dev.space = .ddram) :
    t.dev.shift = shifts s.dev.sh s.dev.id str.length s.dev.shift ∧ t.dev.cgaddr = s.dev.cgaddr := by
  induction str generalizing s with
  | nil => cases h; exact ⟨rfl, rfl⟩
  | cons b str ih =>
    obtain ⟨u, h1, hrest⟩ := SentAll.cons_iff.1 h
    obtain ⟨-, hid, hsh, hspace1⟩ := h1.char_flags
    obtain ⟨-, hshift, hcgaddr, -⟩ := h1.char_ddram hspace
    obtain ⟨hshift', hcgaddr'⟩ := ih hrest (hspace1.trans hspace)
    refine ⟨?_, hcgaddr'.trans hcgaddr⟩
    rw [hshift', hsh, hid, hshift]
    rfl

/-- In two-line mode the characters land at the cursor's successive positions (R201, R242). -/
theorem SentAll.chars_twoLine (h : SentAll (chars str) s t) (hn : s.dev.n = true) (hspace : s.dev.space = .ddram) :
    t.vram = printInto s.dev.id str s.dev.cursor s.vram ∧
    t.dev.cursor = advances s.dev.id str.length s.dev.cursor := by
  induction str generalizing s with
  | nil => cases h; exact ⟨rfl, rfl⟩
  | cons b str ih =>
    obtain ⟨u, h1, hrest⟩ := SentAll.cons_iff.1 h
    obtain ⟨hn1, hid, -, hspace1⟩ := h1.char_flags
    obtain ⟨hvram, -, -, hcursor, -⟩ := h1.char_ddram hspace
    obtain ⟨hvram', hcursor'⟩ := ih hrest (hn1.trans hn) (hspace1.trans hspace)
    rw [hvram', hcursor', hid, hvram, hcursor hn]
    exact ⟨rfl, rfl⟩

/-- In one-line mode they land at the cells drawn, each after the character before it (R228): from character `j` of a
print asked for in `s0`. -/
theorem SentAll.chars_oneLine {s0 : State} {j : Nat} (h : SentAll (chars str) s t) (hn : s.dev.n = false)
    (hspace : s.dev.space = .ddram) (hcell : s.dev.cursor = strayCell s0 j) (hdraws : s.draws = s0.draws + 7 * j) :
    t.vram = printAt (strayCell s0) j str s.vram ∧ t.dev.cursor = strayCell s0 (j + str.length) := by
  induction str generalizing s j with
  | nil => cases h; exact ⟨rfl, hcell⟩
  | cons b str ih =>
    obtain ⟨u, h1, hrest⟩ := SentAll.cons_iff.1 h
    obtain ⟨hn1, -, -, hspace1⟩ := h1.char_flags
    obtain ⟨hvram, -, -, -, hstray⟩ := h1.char_ddram hspace
    obtain ⟨hdraws1, hcursor⟩ := hstray hn
    obtain ⟨hvram', hcursor'⟩ := ih (j := j + 1) hrest (hn1.trans hn) (hspace1.trans hspace)
      (by rw [hcursor, hdraws, strayCell]) (by omega)
    rw [hvram', hcursor', hvram, hcell, List.length_cons, Nat.add_right_comm, Nat.add_assoc]
    exact ⟨rfl, rfl⟩

/-- With CGRAM selected each leaves its five bits at the moving address (R231). -/
theorem SentAll.chars_cgram (h : SentAll (chars str) s t) (hspace : s.dev.space = .cgram) :
    t.vram = printGlyphs s.dev.id (if s.dev.n then 7 else 8) (s.draws + 4) str s.dev.cgaddr s.vram ∧
    t.dev.cgaddr = cgSteps s.dev.id str.length s.dev.cgaddr ∧ t.dev.shift = s.dev.shift := by
  induction str generalizing s with
  | nil => cases h; exact ⟨rfl, rfl, rfl⟩
  | cons b str ih =>
    obtain ⟨u, h1, hrest⟩ := SentAll.cons_iff.1 h
    obtain ⟨hn1, hid, -, hspace1⟩ := h1.char_flags
    obtain ⟨hvram, hshift, hcgaddr, hdraws⟩ := h1.char_cgram hspace
    obtain ⟨hvram', hcgaddr', hshift'⟩ := ih hrest (hspace1.trans hspace)
    rw [hvram', hcgaddr', hshift', hid, hn1, hvram, hcgaddr, hshift, hdraws, Nat.add_right_comm]
    exact ⟨rfl, rfl, rfl⟩

theorem wordsProgram_chars (str : List Byte) : wordsProgram (chars str) = lcdPrintProgram str := by
  induction str with
  | nil => rfl
  | cons b str ih => rw [lcdPrintProgram, ← ih, writeChar]; rfl

/-- Settles O38: a print is its characters sent (`hostCommand_words`), with what each mode makes of them. -/
theorem printWritesEachCharacter : Obligations.PrintWritesEachCharacter := by
  unfold Obligations.PrintWritesEachCharacter
  intro s str hlength hw hidle hi hcan hcov hruns
  have hc : printChecks str s = none := (printChecks_of_lcdInit hi str).trans (if_pos hlength)
  have hsafe : ∀ p ∈ chars str, SafeWord p := List.forall_mem_map.2 fun b _ => safeWord_char b
  obtain ⟨t, hrun, hall, hwrote, hfree⟩ := hostCommand_words (i := .lcdPrint str) hidle hc hw hcov hsafe hcan
    (by rwa [List.length_map])
  rw [wordsProgram_chars] at hrun
  refine ⟨_, hrun, hwrote, hfree, hall.chars_space, hall.chars_shift, fun hn hspace => ?_, fun hn hspace => ?_,
    fun hspace => ?_⟩
  · obtain ⟨hvram, hcursor⟩ := hall.chars_twoLine hn hspace
    exact ⟨hvram, fun a ha => (congrArg (memRead · a) hvram).trans (memRead_printInto ha), hcursor⟩
  · obtain ⟨hvram, hcursor⟩ := hall.chars_oneLine (s0 := s) (j := 0) hn hspace rfl rfl
    rw [Nat.zero_add] at hcursor
    refine ⟨hvram, fun a ha => (congrArg (memRead · a) hvram).trans (memRead_printAt fun k hk => ?_), hcursor⟩
    rw [Nat.zero_add]
    exact ha k hk
  · obtain ⟨hvram, hrest⟩ := hall.chars_cgram hspace
    exact ⟨hvram, fun a ha => (congrArg (memRead · a) hvram).trans (memRead_printGlyphs ha), hrest⟩

end Sys2Proof.Machine
end

section
/-! PROOFS. The statements of 41_lcd_ops: `LCD_INIT` (R189, R190, R240). -/

namespace Sys2Proof.Machine

variable {s t u v : State} {i : Instr} {m : Micro} {ms : List Micro} {k n j : Nat} {q : Option Nat}

/-! ### I1 and I2 (R189) -/

/-- I1's write leaves the lines' output bits and their directions. -/
theorem lcdOut_set_clken (s : State) (w : Word) :
    lcdOut { s with regs := { s.regs with clken := w } } = lcdOut s := lcdOut_congr (by rfl) (by rfl) (by rfl)

theorem lcdMode_set_clken (s : State) (w : Word) :
    lcdMode { s with regs := { s.regs with clken := w } } = lcdMode s := lcdMode_congr (by rfl) (by rfl) (by rfl)

/-- I2's write leaves the clocks. -/
theorem set_lmode_clken (shares : Bool) (g : Regs) (w : Word) : (g.set (portRole shares .lmode) w).clken = g.clken := by
  cases shares <;> rfl

/-- `LCD_INIT` accepted in `s`, after the first `n` of its micro-steps, four of which are I1 and I2. -/
structure SetUpAt (s : State) (n : Nat) (t : State) : Prop where
  kept : LcdKept s t
  out : lcdOut t = lcdOut s
  dev : t.dev = s.dev
  vram : t.vram = s.vram
  busy : t.devBusy = s.devBusy
  events : t.events = s.events
  result : t.result = s.result
  readClock : n = 1 → t.fgT = s.regs.clken
  clken : t.regs.clken = if n < 2 then s.regs.clken else s.regs.clken ||| maskBit 32 true (clkLcdBit s.cfg).val
  readMode : n = 3 → t.fgT = lcdMode s
  mode : lcdMode t = if n < 4 then lcdMode s else lcdLinesOut s.cfg.layout (lcdMode s)
  high : n = 4 → t.highOut = true

namespace SetUpAt

theorem start (s : State) : SetUpAt s 0 s :=
  ⟨(BusKept.refl s).lcdKept, rfl, rfl, rfl, rfl, rfl, rfl, by omega, rfl, by omega, rfl, by omega⟩

theorem fgpos (h : SetUpAt s n t) (p : FgPos) : SetUpAt s n { t with fgpos := p } := { h with kept := { h.kept with } }

theorem settle (h : SetUpAt s n t) : SetUpAt s n t.settle :=
  have hout : lcdOut t.settle = lcdOut t := lcdOut_congr rfl rfl rfl
  have hmode : lcdMode t.settle = lcdMode t := lcdMode_congr rfl rfl rfl
  { h with
    kept := h.kept.trans (settle_busKept t).lcdKept
    out := hout.trans h.out
    mode := hmode.trans h.mode }

/-- One more of them. -/
theorem initStep (h : SetUpAt s n t) (hn : n < 4) (hst : LcdInitStep n t v) : SetUpAt s (n + 1) v := by
  have hkept := h.kept.trans (lcdInitStep_lcdKept hst)
  have hc := h.kept.cfg
  cases hst with
  | bus | flag => omega
  | readClock =>
    exact { h with kept := hkept, readClock := fun _ => h.clken, readMode := by omega, high := by omega }
  | clock =>
    refine
      { h with
        kept := hkept
        out := (lcdOut_set_clken t _).trans h.out
        readClock := by omega
        clken := ?_
        readMode := by omega
        mode := (lcdMode_set_clken t _).trans h.mode
        high := by omega }
    rw [← hc, ← h.readClock rfl]
    rfl
  | readMode =>
    exact { h with kept := hkept, readClock := by omega, readMode := fun _ => h.mode, high := by omega }
  | direct =>
    exact
      { h with
        kept := hkept
        out := (lcdOut_set_lmode t _).trans h.out
        readClock := by omega
        clken := (set_lmode_clken ..).trans h.clken
        readMode := by omega
        mode := by rw [lcdMode_directed, hc, h.readMode rfl]; rfl
        high := fun _ => Bool.or_true _ }

/-- The clock that I2 needs runs from I1 on (R314). -/
theorem clocked_lcd (h : SetUpAt s n t) (hn : 2 ≤ n) : clocked t .lmode = true ∧ clocked t .lodr = true := by
  have hbit : t.regs.clken.getLsbD (clkLcdBit t.cfg).val = true := by
    rw [h.clken, if_neg (by omega), h.kept.cfg]
    simp [maskBit_getLsbD]
  exact ⟨hbit, hbit⟩

/-- None of them is stopped. -/
theorem goes_on (h : SetUpAt s n t) (hn : n < 4) (hm : lcdInitProgram[n]? = some m) :
    ∃ v, micro .fg m t = .next v := by
  match n with
  | 0 => cases hm; exact ⟨_, rfl⟩
  | 1 => cases hm; exact micro_goes_on .fg (by simp [Micro.role, Micro.isWrite, clocked])
  | 2 | 3 =>
    cases hm
    obtain ⟨hclk, -⟩ := h.clocked_lcd (by omega)
    exact micro_goes_on .fg (by simp [Micro.role, Micro.isWrite, hclk])

/-- They leave a quiet port quiet: the clock goes on, and the keypad's directions stay. -/
theorem quiet (h : SetUpAt s n t) (hst : LcdInitStep n t v) (hn : n < 4) (hq : Quiet t) : Quiet v := by
  have hkept := lcdInitStep_lcdKept hst
  have hc := h.kept.cfg
  cases hst with
  | bus | flag => omega
  | readClock | readMode => exact quiet_of_lcdKept hkept rfl rfl id rfl hq
  | clock =>
    refine quiet_of_lcdKept hkept rfl rfl (fun hclk => ?_) rfl hq
    have hT : t.fgT = t.regs.clken := (h.readClock rfl).trans h.clken.symm
    simp [Upd.apply, hT, hclk]
  | direct =>
    refine quiet_of_lcdKept hkept rfl ?_ ?_ ?_ hq
    · cases t.cfg.lcdShares <;> rfl
    · cases t.cfg.lcdShares <;> exact id
    · cases hs : t.cfg.lcdShares with
      | false => rfl
      | true =>
        have hT : t.fgT = t.regs.mode := by
          rw [h.readMode rfl, ← (show lcdMode t = lcdMode s from h.mode), lcdMode, hs]
          rfl
        rw [← hT]
        exact lcdOutput_low hq.wired hs t.fgT

/-- Each runs in a turn that is not pre-empted. -/
theorem runFg (h : SetUpAt s n t) (hn : n < 4) (hm : lcdInitProgram[n]? = some m)
    (hruns : RunsFor (j + 1) { t with quantum := q }) :
    ∃ v, Machine.runFg i k (m :: ms) q t = Machine.runFg i (k + 1) ms (spend q) v ∧
      RunsFor j { v with quantum := spend q } ∧ SetUpAt s (n + 1) v := by
  have hpos := h.fgpos (.inOp i k)
  obtain ⟨v, hv⟩ := hpos.goes_on hn hm
  have hst := lcdInitStep_of_micro hm hv
  have hpoll : ∀ m ∈ lcdInitProgram, m ≠ .pollSlot := by decide
  have hkept : LcdKept t v := { lcdInitStep_lcdKept hst with }
  obtain ⟨hrun, hruns'⟩ := runFg_lcd (ms := ms) hruns hv (hpoll m (List.mem_of_getElem? hm)) hkept fun hq =>
    hpos.quiet hst hn ⟨hq.wired, { hq.armed with }, { hq.calm with }, hq.idle⟩
  exact ⟨_, hrun, hruns', (hpos.initStep hn hst).settle⟩

/-- After I2 the sequencer can drive the device. -/
theorem lcdCan (h : SetUpAt s 4 t) (hd : DeviceTakes s) : LcdCan t where
  clock := (h.clocked_lcd (by decide)).2
  out p hp := by
    rw [h.kept.cfg] at hp
    have hmode : lcdMode t = lcdLinesOut s.cfg.layout (lcdMode s) := h.mode
    rw [lcdDrives, hmode, h.high rfl]
    split
    · rw [lcdLinesOut_output hp ‹_›]
      rfl
    · rfl
  free := h.busy.trans hd.1
  wide := (congrArg Dev.nibble h.dev).trans hd.2

end SetUpAt

/-- I1 and I2 run (R83). -/
theorem runFg_setUp (hruns : RunsFor (n + 4) { s with quantum := q }) :
    ∃ q' t, runFg i k (lcdInitProgram.take 4 ++ ms) q s = runFg i (k + 4) ms q' t ∧
      RunsFor n { t with quantum := q' } ∧ SetUpAt s 4 t := by
  obtain ⟨t1, hrun1, hruns1, h1⟩ := (SetUpAt.start s).runFg (i := i) (k := k) (by decide) rfl hruns
  obtain ⟨t2, hrun2, hruns2, h2⟩ := h1.runFg (i := i) (k := k + 1) (by decide) rfl hruns1
  obtain ⟨t3, hrun3, hruns3, h3⟩ := h2.runFg (i := i) (k := k + 2) (by decide) rfl hruns2
  obtain ⟨t4, hrun4, hruns4, h4⟩ := h3.runFg (i := i) (k := k + 3) (ms := ms) (by decide) rfl hruns3
  exact ⟨_, t4, hrun1.trans (hrun2.trans (hrun3.trans hrun4)), hruns4, h4⟩

/-! ### I3 to I8 (R189, R240) -/

/-- The words of I3 to I7. -/
def initWords : List (Bool × Byte) :=
  [(false, functionSetByte), (false, functionSetByte), (false, iDispCurBlink), (false, iClear), (false, iEntryInc)]

theorem lcdInitProgram_eq : lcdInitProgram = lcdInitProgram.take 4 ++ (wordsProgram initWords ++ [.setLcdInit]) := by
  decide

theorem decode_functionSet : decodeBus (busWord false false 0x38) = .ok (.functionSet true true false 0) := rfl

theorem decode_displayOn : decodeBus (busWord false false 0x0F) = .ok (.displayControl true true true) := rfl

theorem decode_entryInc : decodeBus (busWord false false 0x06) = .ok (.entryModeSet true false) := rfl

/-- None of them puts the device into 4-bit mode (R228). -/
theorem initWords_safe : ∀ p ∈ initWords, SafeWord p := by
  have hfunction : SafeWord (false, functionSetByte) :=
    safeWord_of_decode (.inr (by decide)) decode_functionSet fun _ => Bool.or_false _
  have hdisplay : SafeWord (false, iDispCurBlink) :=
    safeWord_of_decode (.inr (by decide)) decode_displayOn fun _ => rfl
  have hclear : SafeWord (false, iClear) := safeWord_of_decode (.inr (by decide)) decode_clear fun _ => rfl
  have hentry : SafeWord (false, iEntryInc) := safeWord_of_decode (.inr (by decide)) decode_entryInc fun _ => rfl
  simp only [initWords, List.forall_mem_cons]
  exact ⟨hfunction, hfunction, hdisplay, hclear, hentry, List.forall_mem_nil _⟩

/-- A word that leaves the device in two-line mode has its effect and no other. -/
theorem Sent.twoLine {rs : Bool} {b : Byte} (h : Sent rs b s t) (hd : decodeBus (busWord rs false b) = .ok i)
    (hn : (instrEffect i { s with draws := s.draws + 4 }).dev.n = true) :
    t.dev = (instrEffect i { s with draws := s.draws + 4 }).dev ∧
    t.vram = (instrEffect i { s with draws := s.draws + 4 }).vram := by
  rw [← strayCursor_of_twoLine _ hn]
  exact h.instr hd

/-- The device that I3 to I7 leave: R240's, whatever it was. -/
def Dev.afterInit (d : Dev) : Dev :=
  { d with
    cursor := { col := 0, row := 0 }, space := .ddram, d := true, c := true, b := true, id := true, sh := false
    dl := true, n := true, f := false, shift := 0 }

theorem SentAll.initWords_device (h : SentAll initWords s t) :
    t.dev = s.dev.afterInit ∧ t.vram = memClearDdram s.vram := by
  obtain ⟨u1, h1, h⟩ := SentAll.cons_iff.1 h
  obtain ⟨u2, h2, h⟩ := SentAll.cons_iff.1 h
  obtain ⟨u3, h3, h⟩ := SentAll.cons_iff.1 h
  obtain ⟨u4, h4, h⟩ := SentAll.cons_iff.1 h
  obtain ⟨u5, h5, h⟩ := SentAll.cons_iff.1 h
  cases h
  obtain ⟨hdev1, hvram1⟩ := h1.twoLine decode_functionSet rfl
  obtain ⟨hdev2, hvram2⟩ := h2.twoLine decode_functionSet rfl
  have hn2 : u2.dev.n = true := congrArg Dev.n hdev2
  obtain ⟨hdev3, hvram3⟩ := h3.twoLine decode_displayOn hn2
  have hn3 : u3.dev.n = true := (congrArg Dev.n hdev3).trans hn2
  obtain ⟨hdev4, hvram4⟩ := h4.twoLine decode_clear hn3
  have hn4 : u4.dev.n = true := (congrArg Dev.n hdev4).trans hn3
  obtain ⟨hdev5, hvram5⟩ := h5.twoLine decode_entryInc hn4
  simp only [instrEffect, functionSetEffect, displayEffect, clearEffect, entryModeEffect]
    at hdev1 hdev2 hdev3 hdev4 hdev5 hvram1 hvram2 hvram3 hvram4 hvram5
  constructor
  · rw [hdev5, hdev4, hdev3, hdev2, hdev1]
    simp [Dev.afterInit]
  · rw [hvram5, hvram4, hvram3, hvram2, hvram1]

/-- I8. -/
def State.afterInit (t : State) (p : FgPos) : State :=
  { State.settle { t with fgpos := p, lcdInit := true } with fgpos := .idle }

theorem lcdOut_afterInit (t : State) (p : FgPos) : lcdOut (t.afterInit p) = lcdOut t := lcdOut_congr rfl rfl rfl

theorem lcdMode_afterInit (t : State) (p : FgPos) : lcdMode (t.afterInit p) = lcdMode t := lcdMode_congr rfl rfl rfl

theorem runFg_setLcdInit (hruns : RunsFor 1 { s with quantum := q }) :
    runFg i k [.setLcdInit] q s = .next (s.afterInit (.inOp i k)) := by
  have hq : mayRun q s = true := hruns.mayRun
  rw [runFg_cons hq rfl rfl, runFg_done]
  rfl

/-- The command completes: I1 and I2, the five words, and I8. -/
theorem lcdInit_completes (hw : s.cfg.Wired) (hidle : FgIdle s) (hd : DeviceTakes s) (hcov : DelaysCover s.cfg)
    (hruns : RunsFor 35 s) :
    ∃ u t, exec .lcdInit s = .next (t.afterInit (.inOp .lcdInit 35)) ∧
      SetUpAt { s.turnOver with result := none } 4 u ∧ SentAll initWords u t ∧ LcdCan t ∧ t.result = none := by
  obtain ⟨q1, u, hrun1, hruns1, hsetUp⟩ := runFg_setUp (s := { s.turnOver with result := none }) (i := .lcdInit) (k := 1)
    (ms := wordsProgram initWords ++ [.setLcdInit]) (n := 31) hruns.accepted
  have hcfg : u.cfg = s.cfg := hsetUp.kept.cfg
  obtain ⟨q2, t, hrun2, hruns2, hall, hcan, hresult⟩ := runFg_words (i := .lcdInit) (k := 5) (ms := [.setLcdInit]) (n := 1)
    (hcfg ▸ hw) (hcfg ▸ hcov) initWords_safe (hsetUp.lcdCan hd) hruns1
  refine ⟨u, t, ?_, hsetUp, hall, hcan, hresult.trans hsetUp.result⟩
  rw [exec, execLcdInit, hostCommand_accepted hidle rfl, lcdInitProgram_eq, hrun1, hrun2]
  exact runFg_setLcdInit hruns2

/-- A sequencer that can write still can after I8. -/
theorem LcdCan.afterInit (h : LcdCan t) (p : FgPos) : LcdCan (t.afterInit p) where
  clock := h.clock
  out p' hp := by
    rw [lcdDrives, lcdMode_afterInit]
    exact h.out p' hp
  free := h.free
  wide := h.wide

theorem SentAll.last {p : Bool × Byte} {ws : List (Bool × Byte)} (h : SentAll (ws ++ [p]) s t) :
    ∃ u, BusKept s u ∧ Sent p.1 p.2 u t := by
  induction ws generalizing s with
  | nil =>
    obtain ⟨u, h1, h⟩ := SentAll.cons_iff.1 h
    cases h
    exact ⟨s, .refl s, h1⟩
  | cons p' ws ih =>
    obtain ⟨u, h1, h⟩ := SentAll.cons_iff.1 h
    obtain ⟨v, hkept, hsent⟩ := ih h
    exact ⟨v, h1.kept.trans hkept, hsent⟩

/-- The lines are as the last word leaves them (R181). -/
theorem SentAll.lines {p : Bool × Byte} {ws : List (Bool × Byte)} (hk : LcdKept s u) (h : SentAll (ws ++ [p]) u t)
    (ho : lcdOut v = lcdOut t) : LinesAfter p.1 p.2 s v := by
  obtain ⟨w, hkept, hsent⟩ := h.last
  have hk' := hk.trans hkept.lcdKept
  obtain ⟨hrs, hrw, he, hd, hother⟩ := hsent.lines
  rw [hk'.cfg] at hrs hrw he hd hother
  rw [← ho] at hrs hrw he
  refine ⟨hrs, hrw, he, fun i => ho ▸ hd i, fun n hn => ?_⟩
  rw [ho, hother n hn, hk'.others n hn]

/-- Settles O35: `lcdInit_completes`, with what I1 and I2 wrote (`SetUpAt`) and what the words did (`SentAll`). -/
theorem lcdInitHandshake : Obligations.LcdInitHandshake := by
  unfold Obligations.LcdInitHandshake
  intro s hw hidle hd hcov hruns
  obtain ⟨u, t, hexec, hsetUp, hall, hcan, hresult⟩ := lcdInit_completes hw hidle hd hcov hruns
  have hkept := hall.kept
  have hevents : t.events = s.events ++ written s.cfg initWords := by
    rw [hall.events, hsetUp.events, hsetUp.kept.cfg]
    rfl
  obtain ⟨hdev, hvram⟩ := hall.initWords_device
  rw [hsetUp.dev] at hdev
  rw [hsetUp.vram] at hvram
  refine ⟨_, hexec, ⟨hevents, rfl, hresult⟩, ?_, rfl, hcan.free, hcan.afterInit _, ?_, ?_, fun n hn => ?_, ?_⟩
  · exact hevents
  · exact hall.lines (ws := initWords.dropLast) (p := (false, iEntryInc)) { hsetUp.kept with } (lcdOut_afterInit ..)
  · exact hkept.clken.trans hsetUp.clken
  · have hmode : lcdMode u = lcdLinesOut s.cfg.layout (lcdMode s) := hsetUp.mode
    rw [lcdMode_afterInit, hkept.lcdMode, hmode, lcdLinesOut_getLsbD hn]
  · refine ⟨congrArg Dev.dl hdev, congrArg Dev.n hdev, congrArg Dev.f hdev, congrArg Dev.d hdev, congrArg Dev.c hdev,
      congrArg Dev.b hdev, congrArg Dev.id hdev, congrArg Dev.sh hdev, congrArg Dev.space hdev, congrArg Dev.shift hdev,
      congrArg Dev.cursor hdev, fun a => ?_⟩
    exact (congrArg (memRead · a) hvram).trans (memRead_clearDdram s.vram a)

end Sys2Proof.Machine
end

section
/-! PROOFS. The statements of 42_lcd_bus: the display's memories read back what was written, what a word writes to
them, and the canonical form that every step keeps (R223, R231, R240; log 8). -/

namespace Sys2Proof.Machine

variable {s t : State} {i : Instr} {m : Micro} {x : Ctx}

/-! ### Read after write (R223, R231, R240) -/

theorem memRead_memWrite_same {m : Memory} (h : m.wf) (a : Nat) (b : Byte) : memRead (memWrite m a b) a = b := by
  obtain ⟨hsorted, -⟩ := h
  rw [memWrite]
  split
  · next hblank =>
    rw [memErase, memRead_filter (fun y => y != a), if_neg (by simp)]
    exact hblank.symm
  · rw [memRead_insert a b a hsorted, if_pos rfl]

/-- Settles O52: the written byte, the others, and the cleared ones, each by its lemma. -/
theorem memoryReadsBack : Obligations.MemoryReadsBack := by
  unfold Obligations.MemoryReadsBack
  intro m a x b h
  refine ⟨?_, memRead_clearDdram m x⟩
  split
  · next heq => rw [heq, memRead_memWrite_same h]
  · next hne => exact memRead_memWrite_of_ne hne

/-! ### What a word writes to the memories -/

/-- The address at which the device stores a data word (R231). -/
def Dev.dataAddr (d : Dev) : Nat :=
  match d.space with
  | .ddram => cursorAddr d.cursor
  | .cgram => cgramAddr d.cgaddr

/-- `m'` is `m` after the instruction `i`: as before, or cleared by `CLEAR_DISPLAY` (R223), or with a byte stored by
`WRITE_DATA` at the address of `d` (R231). -/
inductive MemoryAfter (i : Instr) (d : Dev) (m : Memory) : Memory → Prop
  | kept : MemoryAfter i d m m
  | cleared : i = .clearDisplay → MemoryAfter i d m (memClearDdram m)
  | stored (b c : Byte) : i = .writeData b → MemoryAfter i d m (memWrite m d.dataAddr c)

theorem MemoryAfter.wf {d : Dev} {m m' : Memory} (h : MemoryAfter i d m m') (hm : m.wf) : m'.wf := by
  cases h with
  | kept => exact hm
  | cleared _ => exact memClearDdram_wf hm
  | stored _ c _ => exact memWrite_wf hm _ c

/-- With `CGRAM` selected the five bits stored are any value (I24). -/
theorem writeDataEffect_vram (b : Byte) (s : State) :
    ∃ c, (writeDataEffect b s).vram = memWrite s.vram s.dev.dataAddr c := by
  unfold writeDataEffect Dev.dataAddr
  cases s.dev.space with
  | ddram => exact ⟨b, rfl⟩
  | cgram => exact ⟨_, rfl⟩

theorem ddramAddrEffect_vram (a : BitVec 7) (s : State) : (ddramAddrEffect a s).vram = s.vram := by
  unfold ddramAddrEffect
  split <;> rfl

theorem cursorShiftEffect_vram (sc rl : Bool) (s : State) : (cursorShiftEffect sc rl s).vram = s.vram := by
  cases sc <;> rfl

theorem instrEffect_vram (i : Instr) (s : State) : MemoryAfter i s.dev s.vram (instrEffect i s).vram := by
  cases i with
  | clearDisplay => exact .cleared rfl
  | writeData b =>
    obtain ⟨c, hc⟩ := writeDataEffect_vram b s
    rw [instrEffect, hc]
    exact .stored b c rfl
  | setDdramAddr a => rw [instrEffect, ddramAddrEffect_vram]; exact .kept
  | cursorDisplayShift sc rl _ => rw [instrEffect, cursorShiftEffect_vram]; exact .kept
  | _ => exact .kept

/-! ### A word that the device executes (R220, R221) -/

/-- What the device makes of instruction `i`: its word is latched, and its effect follows. -/
def State.executes (s : State) (i : Instr) : State := (instrEffect i (s.latched (lbWord i))).strayCursor

theorem executes_deviceWrites (s : State) (i : Instr) : DeviceWrites (s.latched (lbWord i)) (s.executes i) :=
  (instrEffect_deviceWrites i _).trans (strayCursor_deviceWrites _)

theorem executes_events (s : State) (i : Instr) : (s.executes i).events = s.events ++ [.latch (lbWord i)] :=
  (executes_deviceWrites s i).events

theorem executes_devBusy (s : State) (i : Instr) : (s.executes i).devBusy = busyClass (lbWord i) := by
  obtain ⟨_, _, _, h⟩ := executes_deviceWrites s i
  rw [h]
  rfl

/-- That the word is on the trace and the device busy is nothing to the display. -/
theorem executes_sameDisplay (s : State) (i : Instr) : SameDisplay (s.executes i) (instrEffect i s).strayCursor := by
  have hlatched : (s.latched (lbWord i)).withDisplay s = s.latched (lbWord i) := rfl
  rw [State.executes, ← hlatched, instrEffect_withDisplay, strayCursor_withDisplay]
  exact ⟨rfl, rfl, rfl⟩

theorem executes_dev (s : State) (i : Instr) : (s.executes i).dev = (instrEffect i s).strayCursor.dev :=
  (executes_sameDisplay s i).dev

theorem executes_vram (s : State) (i : Instr) : (s.executes i).vram = (instrEffect i s).vram :=
  (executes_sameDisplay s i).vram.trans (strayCursor_vram _)

theorem executes_memory (s : State) (i : Instr) : MemoryAfter i s.dev s.vram (s.executes i).vram := by
  rw [executes_vram]
  exact instrEffect_vram i s

/-- Only bus words are the device's. -/
theorem format_of_deviceExec (h : deviceExec i s = .next t) : i.format = .lb := by
  cases i with
  | clearDisplay | returnHome _ | entryModeSet _ _ | displayControl _ _ _ | cursorDisplayShift _ _ _
  | functionSet _ _ _ _ | setCgramAddr _ | setDdramAddr _ | writeData _ => rfl
  | _ => cases h

theorem deviceExec_next (h : deviceExec i s = .next t) : t = s.executes i := by
  rw [deviceExec_eq_latch (format_of_deviceExec h) (deviceExec_rw h)] at h
  obtain ⟨-, -, ht⟩ := latch_next h
  exact ht

theorem deviceExec_memory (h : deviceExec i s = .next t) : MemoryAfter i s.dev s.vram t.vram := by
  rw [deviceExec_next h]
  exact executes_memory s i

/-- A device that takes a word executes it. -/
theorem exec_of_deviceTakes (h : DeviceTakes s) (hi : i.format = .lb) (hrw : (lbWord i).getLsbD 8 = false) :
    exec i s = .next (s.executes i) := by
  obtain ⟨hfree, hwide⟩ := h
  rw [exec_bus hi, deviceExec_eq_latch hi hrw, latch_taken hwide hfree]
  rfl

/-! ### Every step keeps the canonical form (R240; log 8) -/

theorem deviceExec_memoryLegal (hs : MemoryLegal s) (h : deviceExec i s = .next t) : MemoryLegal t :=
  (deviceExec_memory h).wf hs

theorem busLine_vram {f : Word → Word} (h : busLine f s = .next t) : t.vram = s.vram := by
  rw [busLine_next h]

/-- A micro-step that sets no `E` latches nothing, and the memories stay. -/
theorem micro_vram (hm : ∀ b, m ≠ .busE b) (h : micro x m s = .next t) : t.vram = s.vram := by
  cases m with
  | busE b => exact absurd rfl (hm b)
  | busRs _ | busRw _ | busD _ => rw [micro] at h; exact busLine_vram h
  | read r => rw [micro] at h; rw [microRead_next h]; cases x <;> rfl
  | write r u => rw [micro] at h; rw [regUpdate_next h]; rfl
  | sample => rw [micro] at h; rw [sampleRows_next h]
  | ack c => rw [micro] at h; rw [regWrite_next h]
  | record c => cases h; unfold recordKey; split <;> rfl
  | clearSlot | readSlot | returnSlot | pollSlot | returnCharOfV | returnCharOf _ | setLut _ | setKpdInit | setLcdInit
  | settleDelay _ _ | debounce | lookup => cases h; rfl

theorem memoryLegal_of_vram (hs : MemoryLegal s) (h : t.vram = s.vram) : MemoryLegal t := by
  rwa [MemoryLegal, h]

/-- Where `E` falls the device may take a word. -/
theorem micro_memoryLegal (hs : MemoryLegal s) (h : micro x m s = .next t) : MemoryLegal t := by
  by_cases hm : ∃ b, m = .busE b
  · obtain ⟨b, rfl⟩ := hm
    obtain ⟨v, hv, rfl | ⟨-, -, hw⟩⟩ := busEnable_next h
    · exact memoryLegal_of_vram hs (busLine_vram hv)
    · obtain ⟨j, -, hj⟩ := latchWord_next hw
      exact deviceExec_memoryLegal (memoryLegal_of_vram hs (busLine_vram hv)) hj
  · exact memoryLegal_of_vram hs (micro_vram (fun b hb => hm ⟨b, hb⟩) h)

/-- The environment writes no memory, but for reset, which leaves the empty one (log 8). -/
theorem envStep_memoryLegal {e : EnvStep} (hs : MemoryLegal s) (h : envStep e s = .next t) : MemoryLegal t := by
  cases e with
  | key _ _ _ | bounce _ => cases h; exact hs
  | reset => cases h; exact wf_nil
  | lcdPowered => cases h; exact memoryLegal_of_vram hs (by simp only [settle_vram, powerLcd]; split <;> rfl)
  | tableChanged =>
    simp only [envStep] at h
    split at h <;> cases h
    exact hs

theorem keptByStep_memoryLegal : KeptByStep MemoryLegal where
  fgpos _ _ h := h
  isrpos _ _ h := h
  turnOver _ h := h
  accept _ h := h
  settle _ h := h
  micro _ _ _ _ h hm := micro_memoryLegal h hm
  device _ _ _ h hd := deviceExec_memoryLegal h hd
  quantum _ _ h := h
  port _ _ h := h
  sched _ _ h := h
  env _ _ _ h he := envStep_memoryLegal h he

/-- Settles O53: every part of a step keeps the canonical form, so the step does. -/
theorem memoryStaysCanonical : Obligations.MemoryStaysCanonical := by
  unfold Obligations.MemoryStaysCanonical
  exact fun s t hs h => step_keeps keptByStep_memoryLegal hs h

/-! ### The frame of the bus words (R220, R223, R231) -/

/-- What a word leaves of the memories: all but `CLEAR_DISPLAY` and `WRITE_DATA` every byte, the one CGRAM, the other
every byte but that at its address. -/
theorem MemoryAfter.frame {d : Dev} {m m' : Memory} (h : MemoryAfter i d m m') :
    (i ≠ .clearDisplay → (∀ b, i ≠ .writeData b) → ∀ a, memRead m' a = memRead m a) ∧
    (i = .clearDisplay → ∀ a, 0x100 ≤ a → memRead m' a = memRead m a) ∧
    (∀ b, i = .writeData b → ∀ a, a ≠ d.dataAddr → memRead m' a = memRead m a) := by
  cases h with
  | kept => exact ⟨fun _ _ _ => rfl, fun _ _ _ => rfl, fun _ _ _ _ => rfl⟩
  | cleared hc =>
    subst hc
    refine ⟨fun hn => absurd rfl hn, fun _ a ha => ?_, fun _ hb => nomatch hb⟩
    rw [memRead_clearDdram, if_neg (Nat.not_lt.2 ha)]
  | stored b c hb =>
    subst hb
    exact ⟨fun _ hn => absurd rfl (hn b), fun hc => (nomatch hc), fun _ _ _ ha => memRead_memWrite_of_ne ha⟩

/-- Settles O50: the memories by `MemoryAfter.frame`, the rest by what a word can write. -/
theorem busWordFrames : Obligations.BusWordFrames := by
  unfold Obligations.BusWordFrames
  intro s t i hi h
  rw [exec_bus hi] at h
  obtain ⟨hothers, hclear, hdata⟩ := (deviceExec_memory h).frame
  obtain ⟨_, _, _, rfl⟩ := deviceExec_deviceWrites h
  exact ⟨rfl, rfl, rfl, ⟨rfl, rfl⟩, ⟨rfl, rfl⟩, ⟨rfl, rfl, rfl, rfl⟩, ⟨rfl, rfl, rfl, rfl⟩,
    ⟨rfl, rfl, rfl, rfl, rfl, rfl, rfl, rfl⟩, ⟨rfl, rfl, rfl⟩, rfl, hothers, hclear, fun b hb _ => hdata b hb⟩

end Sys2Proof.Machine
end

section
/-! PROOFS. The statements of 42_lcd_bus: the positions of the cursor (R241, R242) and the words of 42_lcd_bus, executed
by a device that takes a word or faulting on one that does not (R220 to R231). -/

namespace Sys2Proof.Machine

variable {s : State} {i : Instr} {w : BusWord} {d : Byte} {p : Cursor}

/-! ### The cursor's advance (R241, R242) -/

theorem advance_right_end (h : p.col.val = 39) : advance true p = { col := 0, row := 1 - p.row } := by
  rw [advance, if_pos rfl, if_neg (by omega)]

theorem advance_left (h : 0 < p.col.val) :
    advance false p = { col := ⟨p.col.val - 1, by omega⟩, row := p.row } := by
  have hcol : p.col - 1 = ⟨p.col.val - 1, by omega⟩ := by
    apply Fin.ext
    rw [Fin.sub_val_of_le (Fin.le_def.2 h : (1 : Fin 40) ≤ p.col), Fin.val_one]
  rw [advance, if_neg (by decide), if_pos h, hcol]

theorem advance_left_start (h : p.col.val = 0) : advance false p = { col := 39, row := 1 - p.row } := by
  rw [advance, if_neg (by decide), if_neg (by omega)]

theorem otherRow_val (r : Fin 2) : (1 - r).val = 1 - r.val := by decide +revert

theorem otherRow_otherRow (r : Fin 2) : 1 - (1 - r) = r := by decide +revert

theorem advance_left_right (p : Cursor) : advance false (advance true p) = p := by
  by_cases h : p.col.val < 39
  · rw [advance_right h, advance_left (Nat.succ_pos _)]
    rfl
  · have hcol : p.col = 39 := Fin.ext (by simp; omega)
    rw [advance_right_end (by omega), advance_left_start rfl, otherRow_otherRow, ← hcol]

theorem advance_right_left (p : Cursor) : advance true (advance false p) = p := by
  by_cases h : 0 < p.col.val
  · rw [advance_left h, advance_right (by dsimp only; omega)]
    exact congrArg (Cursor.mk · p.row) (Fin.ext (Nat.sub_add_cancel h))
  · have hcol : p.col = 0 := Fin.ext (by simp; omega)
    rw [advance_left_start (by omega), advance_right_end rfl, otherRow_otherRow, ← hcol]

/-- Settles O41: the four cases of the advance, `advances_home`, and the two ways back. -/
theorem cursorShiftsReachEveryCell : Obligations.CursorShiftsReachEveryCell := by
  unfold Obligations.CursorShiftsReachEveryCell
  refine ⟨fun p => ⟨fun h => ?_, fun h => ?_, fun h => ?_, fun h => ?_⟩, fun x y => ?_,
    fun p => ⟨advance_left_right p, advance_right_left p⟩⟩
  · rw [advance_right h]
    exact ⟨rfl, rfl⟩
  · rw [advance_right_end h]
    exact ⟨rfl, otherRow_val _⟩
  · rw [advance_left h]
    exact ⟨rfl, rfl⟩
  · rw [advance_left_start h]
    exact ⟨rfl, otherRow_val _⟩
  · obtain ⟨hcol, hrow⟩ := advances_home x.isLt y.isLt
    rw [Nat.mul_comm]
    exact congrArg₂ Cursor.mk (Fin.ext hcol) (Fin.ext hrow)

/-- `Addr` undoes `Pos` on the valid addresses (R230, R241). -/
theorem cursorAddr_cursorAt {a : BitVec 7} (h : validDdram a = true) : cursorAddr (cursorAt a) = a.toNat := by
  simp only [validDdram, Bool.or_eq_true, Bool.and_eq_true, decide_eq_true_eq] at h
  simp only [cursorAddr, cursorAt, Fin.val_ofNat]
  omega

/-! ### A word that is not executed (R222, R228) -/

/-- A word that is not 0 and no read is latched with some effect. -/
theorem latchWord_writing (h0 : w ≠ 0) (hrw : w.getLsbD 8 = false) : ∃ f, ∀ s, latchWord w s = latch w f s := by
  have hw := busWord_of_lines w
  rw [hrw] at hw
  have hword : IsWord (w.getLsbD 9) (w.extractLsb' 0 8) := by
    by_contra hno
    obtain ⟨hrs, hbyte⟩ := not_or.1 hno
    rw [Bool.not_eq_true] at hrs
    rw [hrs, not_not.1 hbyte] at hw
    exact h0 hw.symm
  refine ⟨wordEffect (w.getLsbD 9) (w.extractLsb' 0 8), fun s => ?_⟩
  have hlatch := latchWord_eq_latch hword s
  rwa [hw] at hlatch

/-- Where there is a reason, the first is the outcome's, and `faults` has them all. -/
theorem latch_faults {f : State → State} {r : FaultRecord} {rs : List FaultRecord} (h : latchFaults w s = r :: rs) :
    latch w f s = .fault (r.leaving ((s.latched w).marked (r :: rs))) := by
  rw [latch, h]

/-- Settles O48: the word is latched with some effect, and `latchFaults` gives its reasons in each case. -/
theorem latchWord_faults : Obligations.LatchFaults := by
  unfold Obligations.LatchFaults
  intro s w h0 hrw
  obtain ⟨f, hf⟩ := latchWord_writing h0 hrw
  refine ⟨fun hwide hbusy => ?_, fun hnibble hfree => ?_, fun hnibble hbusy => ?_⟩
  · have hreasons : latchFaults w s = [.lcdBusy w s.pos] := by simp [latchFaults, hwide, hbusy]
    exact (hf s).trans (latch_faults hreasons)
  · have hreasons : latchFaults w s = [.lcdMode w s.pos] := by simp [latchFaults, hnibble, hfree]
    exact (hf s).trans (latch_faults hreasons)
  · have hreasons : latchFaults w s = [.lcdMode w s.pos, .lcdBusy w s.pos] := by
      simp [latchFaults, hnibble, hbusy]
    exact (hf s).trans (latch_faults hreasons)

/-! ### Words in a device that takes one (R221, R223 to R231) -/

/-- Of the instruction words only `CLEAR_DISPLAY` and `RETURN_HOME`, whose bytes are below 4, take long (R221). -/
theorem executes_short (hd : lbWord i = busWord false false d) (h : 4 ≤ d.toNat) :
    (s.executes i).devBusy = .short := by
  rw [executes_devBusy, hd, busyClass_instr, if_neg (by omega)]

/-- In two-line mode the device is as the effect leaves it (R228). -/
theorem executes_twoLine (h : (instrEffect i s).dev.n = true) : (s.executes i).dev = (instrEffect i s).dev := by
  rw [executes_dev, strayCursor_of_twoLine _ h]

theorem executes_cursor (h : (instrEffect i s).dev.n = true) :
    (s.executes i).dev.cursor = (instrEffect i s).dev.cursor := by
  rw [executes_twoLine h]

/-- Settles O43: the two words are executed, and what R223 or R224 makes of the display is kept by `strayCursor`. -/
theorem clearAndHomeWords : Obligations.ClearAndHomeWords := by
  unfold Obligations.ClearAndHomeWords
  intro s h
  refine ⟨?_, fun x => ?_⟩
  · refine ⟨_, exec_of_deviceTakes (i := .clearDisplay) h rfl rfl, executes_events .., executes_devBusy ..,
      fun a => ?_, ?_⟩
    · rw [executes_vram]
      exact memRead_clearDdram s.vram a
    · rw [executes_dev]
      exact ⟨strayCursor_dev_space _, strayCursor_dev_shift _, strayCursor_dev_id _, fun hn => strayCursor_cursor hn⟩
  · refine ⟨_, exec_of_deviceTakes (i := .returnHome x) h rfl (busWord_rw ..), ?_, ?_, fun a => ?_, ?_⟩
    · rw [executes_events]
      cases x <;> rfl
    · rw [executes_devBusy]
      cases x <;> rfl
    · rw [executes_vram]
      rfl
    · rw [executes_dev]
      exact ⟨strayCursor_dev_space _, strayCursor_dev_shift _, strayCursor_dev_id _, fun hn => strayCursor_cursor hn⟩

/-- Settles O44: the three words are executed; in two-line mode the device is as their effect leaves it. -/
theorem modeWordsSetTheFlags : Obligations.ModeWordsSetTheFlags := by
  unfold Obligations.ModeWordsSetTheFlags
  intro s h
  refine ⟨fun id sh => ?_, fun d c b => ?_, fun dl n f x => ?_⟩
  · exact ⟨_, exec_of_deviceTakes (i := .entryModeSet id sh) h rfl (busWord_rw ..), executes_events ..,
      strayCursor_dev_id _, strayCursor_dev_sh _, executes_short rfl (by decide +revert), executes_vram ..,
      fun hn => executes_twoLine (i := .entryModeSet id sh) hn⟩
  · exact ⟨_, exec_of_deviceTakes (i := .displayControl d c b) h rfl (busWord_rw ..), executes_events ..,
      strayCursor_dev_d _, strayCursor_dev_c _, strayCursor_dev_b _, executes_short rfl (by decide +revert),
      executes_vram .., fun hn => executes_twoLine (i := .displayControl d c b) hn⟩
  · refine ⟨_, exec_of_deviceTakes (i := .functionSet dl n f x) h rfl (busWord_rw ..), executes_events ..,
      strayCursor_dev_dl _, strayCursor_dev_n _, strayCursor_dev_f _, executes_short rfl (by decide +revert),
      executes_vram .., ?_⟩
    obtain ⟨-, hwide⟩ := h
    have hnibble : (s.dev.nibble || !dl) = !dl := by rw [hwide, Bool.false_or]
    refine ⟨(strayCursor_dev_nibble _).trans hnibble, ?_⟩
    rintro rfl
    rw [executes_twoLine rfl, ← hnibble]
    rfl

theorem shiftBy_val (right : Bool) (n : Fin 40) :
    (shiftBy right n).val = if right then (n.val + 1) % 40 else (n.val + 39) % 40 := by
  cases right
  · rw [shiftBy, if_neg (by decide), if_neg (by decide), Fin.val_sub, Nat.add_comm]
    rfl
  · rw [shiftBy, if_pos rfl, if_pos rfl, Fin.val_add]
    rfl

/-- The display shifted by one shows at each position what its neighbour showed (R243). -/
theorem add_shiftBy (right : Bool) (p n : Fin 40) :
    p + shiftBy right n = (if right then p + 1 else p - 1) + n := by
  cases right
  · exact (add_sub_assoc ..).symm.trans (sub_add_eq_add_sub ..).symm
  · exact (add_assoc ..).symm.trans (add_right_comm ..)

/-- Settles O45: the two cases of `SC`. -/
theorem shiftWordMovesCursorOrDisplay : Obligations.ShiftWordMovesCursorOrDisplay := by
  unfold Obligations.ShiftWordMovesCursorOrDisplay
  intro s rl x h
  constructor
  · exact ⟨_, exec_of_deviceTakes (i := .cursorDisplayShift false rl x) h rfl (busWord_rw ..), executes_events ..,
      strayCursor_dev_shift _, executes_vram .., executes_short rfl (by decide +revert),
      fun hn => executes_cursor (i := .cursorDisplayShift false rl x) hn⟩
  · have hbusy : (s.executes (.cursorDisplayShift true rl x)).devBusy = .short :=
      executes_short rfl (by decide +revert)
    have hshift : (s.executes (.cursorDisplayShift true rl x)).dev.shift = shiftBy rl s.dev.shift :=
      strayCursor_dev_shift _
    have hvram : (s.executes (.cursorDisplayShift true rl x)).vram = s.vram := executes_vram ..
    refine ⟨_, exec_of_deviceTakes (i := .cursorDisplayShift true rl x) h rfl (busWord_rw ..), executes_events ..,
      hvram, hbusy, ?_, fun row p => ?_, fun hn => executes_cursor (i := .cursorDisplayShift true rl x) hn⟩
    · rw [hshift, shiftBy_val]
    · rw [visibleChar, visibleChar, hshift, hvram, add_shiftBy]

/-- An invalid address leaves the display memory selected where it was (log 6). -/
theorem ddramAddrEffect_space (a : BitVec 7) (h : s.dev.space = .ddram) : (ddramAddrEffect a s).dev.space = .ddram := by
  unfold ddramAddrEffect
  split
  · rfl
  · simp [h]

theorem ddramAddrEffect_valid {a : BitVec 7} (h : validDdram a = true) (s : State) :
    ddramAddrEffect a s = { s with dev := { s.dev with space := .ddram, cursor := cursorAt a } } := if_pos h

/-- Settles O46: the two words; the display address is the cursor's again by `cursorAddr_cursorAt`. -/
theorem addressWordsPoint : Obligations.AddressWordsPoint := by
  unfold Obligations.AddressWordsPoint
  intro s h
  refine ⟨fun a => ?_, fun a => ?_⟩
  · exact ⟨_, exec_of_deviceTakes (i := .setCgramAddr a) h rfl (busWord_rw ..), executes_events ..,
      strayCursor_dev_space _, strayCursor_dev_cgaddr _, executes_vram .., executes_short rfl (by decide +revert)⟩
  · refine ⟨_, exec_of_deviceTakes (i := .setDdramAddr a) h rfl (busWord_rw ..), executes_events ..,
      (executes_vram ..).trans (ddramAddrEffect_vram a s), executes_short rfl (by decide +revert), ?_⟩
    rw [executes_dev, strayCursor_dev_space, instrEffect]
    refine ⟨fun hvalid => ?_, ddramAddrEffect_space a⟩
    rw [ddramAddrEffect_valid hvalid]
    refine ⟨rfl, fun hn => ?_⟩
    rw [strayCursor_of_twoLine { s with dev := { s.dev with space := .ddram, cursor := cursorAt a } } hn]
    exact cursorAddr_cursorAt hvalid

/-- With the display memory selected a data word stores its byte at the cursor (R231), -/
theorem writeDataEffect_ddram (b : Byte) (h : s.dev.space = .ddram) :
    writeDataEffect b s = { s with
      vram := memWrite s.vram (cursorAddr s.dev.cursor) b
      dev := { s.dev with
        cursor := advance s.dev.id s.dev.cursor
        shift := if s.dev.sh then shiftBy s.dev.id s.dev.shift else s.dev.shift } } := by
  rw [writeDataEffect, h]

/-- and with CGRAM selected five bits of any value at the CGRAM address (I24). -/
theorem writeDataEffect_cgram (b : Byte) (h : s.dev.space = .cgram) :
    writeDataEffect b s = { s with
      vram := memWrite s.vram (cgramAddr s.dev.cgaddr) ((Config.freeGlyph s.draws b).setWidth 8)
      dev := { s.dev with cgaddr := cgStep s.dev.id s.dev.cgaddr }
      draws := s.draws + 1 } := by
  rw [writeDataEffect, h]

theorem lbWord_writeData (b : Byte) : lbWord (.writeData b) = 0x200#10 ||| b.setWidth 10 := by decide +revert

/-- Settles O47: a byte stored and the position moved, in each of the two memories. -/
theorem dataWordStoresAndAdvances : Obligations.DataWordStoresAndAdvances := by
  unfold Obligations.DataWordStoresAndAdvances
  intro s b h hwf
  refine ⟨_, exec_of_deviceTakes (i := .writeData b) h rfl (busWord_rw ..), ?_, ?_, fun hspace => ?_, fun hspace => ?_⟩
  · rw [executes_events, lbWord_writeData]
  · rw [executes_devBusy]
    exact busyClass_char b
  · rw [executes_vram, executes_dev, strayCursor_dev_shift, instrEffect, writeDataEffect_ddram b hspace]
    exact ⟨memRead_memWrite_same hwf .., fun a ha => memRead_memWrite_of_ne ha, rfl, fun hn => strayCursor_cursor hn⟩
  · rw [executes_vram, executes_dev, strayCursor_dev_cgaddr, instrEffect, writeDataEffect_cgram b hspace]
    exact ⟨memRead_memWrite_same hwf .., fun a ha => memRead_memWrite_of_ne ha, rfl⟩

end Sys2Proof.Machine
end

section
/-! PROOFS. The statements of 60_exceptions: a requesting line is entered (R272 to R275), what is refused under a
running handler or before its `*_INIT` (R202, R262), and that a stop is marked and final (R260, R261). -/

namespace Sys2Proof.Machine

variable {s t : State} {i : Instr} {c : Col} {f : Fault}

/-! ### A requesting line is entered (R272, R274, R275) -/

/-- With no handler running the default scheduler gives the turn to the line it picks (R275). -/
theorem defaultTurn_picked (h : s.isrpos = none) (hp : pickLine s = some c) :
    defaultTurn s = exec (isrInstr c) s := by
  simp [defaultTurn, h, hp]

/-- Settles O9: the line that `pickLine` picks is a requesting one. -/
theorem pendingLineIsEntered : Obligations.PendingLineIsEntered := by
  unfold Obligations.PendingLineIsEntered
  intro s h1 h2 h3 hi hr
  obtain ⟨c, hpick, hreq⟩ := pickLine_some hr
  exact ⟨c, hreq, (step_default h1 h2 h3).trans (defaultTurn_picked hi hpick)⟩

/-- The event of a line that does not request is not taken (R272), -/
theorem columnHandler_unrequested {prog : List Micro} (h : s.isrpos = none) (hr : req s c = false) :
    columnHandler c prog s = .next s.turnOver := by
  simp [columnHandler, h, hr]

/-- and neither is an event under another line's handler (R274). -/
theorem columnHandler_nested {prog : List Micro} {p : IsrPos} (h : s.isrpos = some p) (hc : p.col ≠ c) :
    columnHandler c prog s = .next s.turnOver := by
  simp [columnHandler, h, hc]

/-! ### Commands by their checks (R202, R262, R274) -/

/-- What each host command checks before its first micro-step; a reserved opcode is refused without. -/
def commandChecks : Instr → State → Option Refusal
  | .kpdClear => kpdReady Instr.kpdClear.opcode
  | .kpdGet => kpdReady Instr.kpdGet.opcode
  | .kpdWait => kpdReady Instr.kpdWait.opcode
  | .kpdGetWait => kpdReady Instr.kpdGetWait.opcode
  | .kpdGetChar => kpdReady Instr.kpdGetChar.opcode
  | .kpdGetCharWait => kpdReady Instr.kpdGetCharWait.opcode
  | .kpdToChar key => kpdReady (Instr.kpdToChar key).opcode
  | .kpdSetCharLut table => kpdReady (Instr.kpdSetCharLut table).opcode
  | .lcdClear => lcdReady Instr.lcdClear.opcode
  | .lcdHome => lcdReady Instr.lcdHome.opcode
  | .lcdCursorSet x y => cursorChecks x y
  | .lcdCursorShow => lcdReady Instr.lcdCursorShow.opcode
  | .lcdCursorHide => lcdReady Instr.lcdCursorHide.opcode
  | .lcdPrint str => printChecks str
  | .lcdWriteInstr v => writeInstrChecks v
  | .lcdWriteData v => lcdReady (Instr.lcdWriteData v).opcode
  | .kpdInit | .lcdInit | .hcReservedLow _ | .hcReservedHigh _ | .kpdIsrCol0 | .kpdIsrCol1 | .kpdIsrCol2 | .kpdIsrCol3
  | .clearDisplay | .returnHome _ | .entryModeSet _ _ | .displayControl _ _ _ | .cursorDisplayShift _ _ _
  | .functionSet _ _ _ _ | .setCgramAddr _ | .setDdramAddr _ | .writeData _ | .readBfAc _ | .readData _ => fun _ => none

/-- A command whose opcode is not reserved makes its checks and then runs its micro-steps. -/
theorem exec_hostCommand (hi : i.format = .hc) (hlow : ∀ op, i ≠ .hcReservedLow op)
    (hhigh : ∀ op, i ≠ .hcReservedHigh op) (s : State) :
    exec i s = hostCommand i (commandChecks i) (commandProgram i) s := by
  cases i with
  | hcReservedLow op => exact absurd rfl (hlow op)
  | hcReservedHigh op => exact absurd rfl (hhigh op)
  | kpdInit | kpdClear | kpdGet | kpdWait | kpdGetWait | kpdGetChar | kpdGetCharWait | kpdToChar _ | kpdSetCharLut _
  | lcdInit | lcdClear | lcdHome | lcdCursorSet _ _ | lcdCursorShow | lcdCursorHide | lcdPrint _ | lcdWriteInstr _
  | lcdWriteData _ => rfl
  | _ => cases hi

section NotInitialized

variable (hi : i.format = .hc) (hlow : ∀ op, i ≠ .hcReservedLow op) (hhigh : ∀ op, i ≠ .hcReservedHigh op)
include hi hlow hhigh

/-- A keypad command's check, but for `KPD_INIT`'s, fails before `kpd_init` (R262). -/
theorem commandChecks_keypad (hinit : i ≠ .kpdInit) (hbit : i.opcode.getLsbD 7 = false) (h : s.kpdInit = false) :
    commandChecks i s = some (.notInitialized i.opcode s.pos) := by
  have hready (op : Byte) : kpdReady op s = some (.notInitialized op s.pos) := by simp [kpdReady, h]
  cases i with
  | kpdClear | kpdGet | kpdWait | kpdGetWait | kpdGetChar | kpdGetCharWait | kpdToChar _ | kpdSetCharLut _ =>
    exact hready _
  | kpdInit => exact absurd rfl hinit
  | hcReservedLow op => exact absurd rfl (hlow op)
  | hcReservedHigh op => exact absurd rfl (hhigh op)
  | lcdInit | lcdClear | lcdHome | lcdCursorSet _ _ | lcdCursorShow | lcdCursorHide | lcdPrint _ | lcdWriteInstr _
  | lcdWriteData _ => simp [Instr.opcode] at hbit
  | _ => cases hi

/-- An LCD command's checks, but for `LCD_INIT`'s, fail before `lcd_init` with that reason, whatever its operands are
(R262, R275). -/
theorem commandChecks_lcd (hinit : i ≠ .lcdInit) (hbit : i.opcode.getLsbD 7 = true) (h : s.lcdInit = false) :
    commandChecks i s = some (.notInitialized i.opcode s.pos) := by
  have hready (op : Byte) : lcdReady op s = some (.notInitialized op s.pos) := by simp [lcdReady, h]
  cases i with
  | lcdClear | lcdHome | lcdCursorShow | lcdCursorHide | lcdWriteData _ => exact hready _
  | lcdCursorSet _ _ => rw [commandChecks, cursorChecks, hready]
  | lcdPrint _ => rw [commandChecks, printChecks, hready]
  | lcdWriteInstr _ => rw [commandChecks, writeInstrChecks, hready]
  | lcdInit => exact absurd rfl hinit
  | hcReservedLow op => exact absurd rfl (hlow op)
  | hcReservedHigh op => exact absurd rfl (hhigh op)
  | kpdInit | kpdClear | kpdGet | kpdWait | kpdGetWait | kpdGetChar | kpdGetCharWait | kpdToChar _
  | kpdSetCharLut _ => simp [Instr.opcode] at hbit
  | _ => cases hi

end NotInitialized

/-- Settles O25: the sub-block's flag is the first of each command's checks. -/
theorem commandsNeedTheirInit : Obligations.CommandsNeedTheirInit := by
  unfold Obligations.CommandsNeedTheirInit
  intro s i hidle hi hkpd hlcd hlow hhigh
  rw [exec_hostCommand hi hlow hhigh]
  exact ⟨fun hbit h => hostCommand_refused hidle (commandChecks_keypad hi hlow hhigh hkpd hbit h),
    fun hbit h => hostCommand_refused hidle (commandChecks_lcd hi hlow hhigh hlcd hbit h)⟩

/-- Under a running handler a keypad command is not taken (R274), -/
theorem hostCommand_keypad_nested {checks : State → Option Refusal} {prog : List Micro} {p : IsrPos}
    (h : s.isrpos = some p) (hbit : i.opcode.getLsbD 7 = false) : hostCommand i checks prog s = .next s.turnOver := by
  have hcmd : isLcdCommand i = false := by rw [isLcdCommand, hbit, Bool.and_false]
  simp [hostCommand, h, hcmd]

/-- and an LCD command is refused, before its checks (R202; log 40). -/
theorem hostCommand_lcd_nested {checks : State → Option Refusal} {prog : List Micro} {p : IsrPos}
    (h : s.isrpos = some p) (hi : i.format = .hc) (hbit : i.opcode.getLsbD 7 = true) :
    hostCommand i checks prog s = .refused (.lcdFromIsr i.opcode s.pos) := by
  simp [hostCommand, h, isLcdCommand, hi, hbit]

theorem reservedLow_bit {op : Byte} (h : reservedLow op = true) : op.getLsbD 7 = false := by decide +revert

theorem reservedHigh_bit {op : Byte} (h : reservedHigh op = true) : op.getLsbD 7 = true := by decide +revert

/-- A well-formed keypad command is not of the LCD's reserved range (R100, R109), -/
theorem ne_hcReservedHigh (hw : i.wellFormed = true) (hbit : i.opcode.getLsbD 7 = false) (op : Byte) :
    i ≠ .hcReservedHigh op := by
  rintro rfl
  exact absurd ((reservedHigh_bit hw).symm.trans hbit) (by decide)

/-- and a well-formed LCD command not of the keypad's. -/
theorem ne_hcReservedLow (hw : i.wellFormed = true) (hbit : i.opcode.getLsbD 7 = true) (op : Byte) :
    i ≠ .hcReservedLow op := by
  rintro rfl
  exact absurd ((reservedLow_bit hw).symm.trans hbit) (by decide)

/-- Settles O18: an entered handler with no micro-step to take stands at S1; what else is asked for is not taken, or
refused, by the lemma of its case. -/
theorem handlerEntry : Obligations.HandlerEntry := by
  unfold Obligations.HandlerEntry
  refine fun s c => ⟨fun hi hr hq => ?_, fun hi hr => ?_, fun p hp hc => ?_, fun p hp i hw hi hbit hlow => ?_,
    fun p hp i hw hi hbit hhigh => ?_⟩
  · rw [exec_isrInstr, columnHandler_entered hi hr, hq]
    exact runIsr_spent rfl
  · exact (exec_isrInstr c s).trans (columnHandler_unrequested hi hr)
  · exact (exec_isrInstr c s).trans (columnHandler_nested hp hc)
  · exact (exec_hostCommand hi hlow (ne_hcReservedHigh hw hbit) s).trans (hostCommand_keypad_nested hp hbit)
  · exact (exec_hostCommand hi (ne_hcReservedLow hw hbit) hhigh s).trans (hostCommand_lcd_nested hp hi hbit)

/-! ### What a fault leaves in `faults` (R261) -/

/-- The state that `f` leaves has `f`'s reason alone in `faults`; or the reason is a word latched in 4-bit mode, and
`faults` has beside it that the device was busy (R228, R222; log 13). -/
def Fault.MarksItself (f : Fault) : Prop :=
  f.left.faults = [f.record] ∨
    ∃ w pos, f.record = .lcdMode w pos ∧ f.left.faults = [.lcdMode w pos, .lcdBusy w pos]

/-- A gated access has its one reason. -/
theorem clockGated_marksItself (hs : s.faults = []) (r : Role) :
    (Fault.clockGated r s.pos (s.marked [.clockGated r s.pos])).MarksItself :=
  .inl ((marked_faults ..).trans (by rw [hs]; rfl))

theorem regRead_fault {r : Role} (hs : s.faults = []) (h : regRead r s = .error f) : f.MarksItself := by
  rcases regRead_cases r s with ⟨-, h'⟩ | ⟨-, h'⟩ <;> rw [h'] at h <;> cases h
  exact clockGated_marksItself hs r

theorem regWrite_fault {r : Role} {v : Word} (hs : s.faults = []) (h : regWrite r v s = .fault f) :
    f.MarksItself := by
  rcases regWrite_cases r v s with ⟨-, -, h'⟩ | ⟨-, -, h'⟩ | ⟨-, h'⟩ <;> rw [h'] at h <;> cases h
  exact clockGated_marksItself hs r

theorem regUpdate_fault {r : Role} {u : Upd} {w : Word} (hs : s.faults = []) (h : regUpdate r u w s = .fault f) :
    f.MarksItself := by
  rcases regUpdate_cases r u w s with ⟨-, -, h'⟩ | ⟨-, -, h'⟩ | ⟨-, h'⟩ <;> rw [h'] at h <;> cases h
  exact clockGated_marksItself hs r

theorem busLine_fault {g : Word → Word} (hs : s.faults = []) (h : busLine g s = .fault f) : f.MarksItself :=
  regWrite_fault hs h

/-- A word that is not executed has the reasons of `latchFaults`, of which 4-bit mode is the first (log 13). -/
theorem latch_fault {w : BusWord} {g : State → State} (hs : s.faults = []) (h : latch w g s = .fault f) :
    f.MarksItself := by
  have hmarks : ((s.latched w).marked (latchFaults w s)).faults = latchFaults w s := by
    rw [marked_faults, latched_faults, hs, List.nil_append]
  rcases latch_cases w g s with ⟨-, -, h'⟩ | ⟨hn, h'⟩ | ⟨hn, hb, h'⟩ <;> rw [h'] at h <;> cases h
  · by_cases hb : s.devBusy = .free
    · exact .inl (hmarks.trans (by simp [latchFaults, hn, hb, Fault.record]))
    · exact .inr ⟨w, s.pos, rfl, hmarks.trans (by simp [latchFaults, hn, hb])⟩
  · exact .inl (hmarks.trans (by simp [latchFaults, hn, hb, Fault.record]))

/-- The device faults only by its latch. -/
theorem deviceExec_fault (hs : s.faults = []) (h : deviceExec i s = .fault f) : f.MarksItself := by
  cases i with
  | clearDisplay | returnHome _ | entryModeSet _ _ | displayControl _ _ _ | cursorDisplayShift _ _ _
  | functionSet _ _ _ _ | setCgramAddr _ | setDdramAddr _ | writeData _ => exact latch_fault hs h
  | _ => cases h

theorem latchWord_fault {w : BusWord} (hs : s.faults = []) (h : latchWord w s = .fault f) : f.MarksItself := by
  unfold latchWord at h
  split at h
  · exact deviceExec_fault hs h
  · cases h

/-- `BusSet(E, b)` faults in the change of its line, or in the latch after it, before which `faults` is as it was. -/
theorem busEnable_fault {b : Bool} (hs : s.faults = []) (h : busEnable b s = .fault f) : f.MarksItself := by
  unfold busEnable at h
  split at h
  · rename_i t ht
    have hk : t.faults = [] := by rw [busLine_next ht, hs]
    split at h
    · exact latchWord_fault hk h
    · cases h
  · cases h
    exact busLine_fault hs ‹_›
  · cases h

theorem microRead_fault {x : Ctx} {r : Role} (hs : s.faults = []) (h : microRead x r s = .fault f) :
    f.MarksItself := by
  unfold microRead at h
  split at h <;> cases h
  exact regRead_fault hs ‹_›

theorem sampleRows_fault (hs : s.faults = []) (h : sampleRows s = .fault f) : f.MarksItself := by
  unfold sampleRows at h
  split at h <;> cases h
  exact regRead_fault hs ‹_›

/-- A micro-step faults by the register or bus access that it is; the others do not fault. -/
theorem micro_fault {x : Ctx} {m : Micro} (hs : s.faults = []) (h : micro x m s = .fault f) : f.MarksItself := by
  cases m with
  | read _ => exact microRead_fault hs h
  | write _ _ => exact regUpdate_fault hs h
  | busE _ => exact busEnable_fault hs h
  | busRs _ | busRw _ | busD _ => rw [micro] at h; exact busLine_fault hs h
  | sample => exact sampleRows_fault hs h
  | ack _ => exact regWrite_fault hs h
  | clearSlot | readSlot | returnSlot | pollSlot | returnCharOfV | returnCharOf _ | setLut _ | setKpdInit | setLcdInit
  | settleDelay _ _ | debounce | lookup | record _ => cases h

/-- A micro-step that answers a next state has put no reason into `faults`. -/
theorem micro_faults {x : Ctx} {m : Micro} (h : micro x m s = .next t) : t.faults = s.faults := by
  have hk : t.outsideMicro.faults = s.outsideMicro.faults := by rw [micro_outsideMicro h]
  exact hk

/-! ### What a turn's fault leaves (R261) -/

/-- The first micro-step of a run that faults leaves `faults` as the micro-step does. -/
theorem runFg_fault {k : Nat} {ms : List Micro} {q : Option Nat} (hs : s.faults = [])
    (h : runFg i k ms q s = .fault f) : f.MarksItself := by
  induction ms generalizing k q s with
  | nil => cases h
  | cons m rest ih =>
    simp only [runFg] at h
    split at h
    · split at h
      · rename_i t ht
        split at h
        · cases h
        · exact ih ((settle_faults t).trans ((micro_faults ht).trans hs)) h
      · cases h
        exact micro_fault (s := { s with fgpos := .inOp i k }) hs ‹_›
      · cases h
    · cases h

theorem runIsr_fault {k : Nat} {ms : List Micro} {q : Option Nat} (hs : s.faults = [])
    (h : runIsr c k ms q s = .fault f) : f.MarksItself := by
  induction ms generalizing k q s with
  | nil =>
    simp only [runIsr] at h
    split at h <;> cases h
  | cons m rest ih =>
    simp only [runIsr] at h
    split at h
    · exact ih hs h
    · split at h
      · cases h
      · split at h
        · rename_i t ht
          exact ih ((settle_faults t).trans ((micro_faults ht).trans hs)) h
        · cases h
          exact micro_fault (s := { s with isrpos := some { col := c, k := k } }) hs ‹_›
        · cases h

/-- A command faults in its run, accepted or gone on with. -/
theorem hostCommand_fault {checks : State → Option Refusal} {prog : List Micro} (hs : s.faults = [])
    (h : hostCommand i checks prog s = .fault f) : f.MarksItself := by
  unfold hostCommand at h
  split at h
  · split at h <;> cases h
  · split at h
    · split at h
      · cases h
      · exact runFg_fault (s := { s.turnOver with result := none }) hs h
    · split at h
      · exact runFg_fault (s := s.turnOver) hs h
      · cases h

/-- An event faults in its handler's run, entered or gone on with. -/
theorem columnHandler_fault {prog : List Micro} (hs : s.faults = []) (h : columnHandler c prog s = .fault f) :
    f.MarksItself := by
  unfold columnHandler at h
  split at h
  · split at h
    · exact runIsr_fault (s := enterHandler c s.turnOver) hs h
    · cases h
  · split at h
    · exact runIsr_fault (s := s.turnOver) hs h
    · cases h

/-- An instruction's fault, by its format: a command's, a handler's or the device's. -/
theorem exec_fault (hs : s.faults = []) (h : exec i s = .fault f) : f.MarksItself := by
  cases hi : i.format with
  | hc =>
    have hlow (op : Byte) : i ≠ .hcReservedLow op := by rintro rfl; cases h
    have hhigh (op : Byte) : i ≠ .hcReservedHigh op := by rintro rfl; cases h
    rw [exec_hostCommand hi hlow hhigh] at h
    exact hostCommand_fault hs h
  | irq =>
    obtain ⟨c, rfl⟩ := isrInstr_of_format hi
    rw [exec_isrInstr] at h
    exact columnHandler_fault hs h
  | lb =>
    rw [exec_bus hi] at h
    exact deviceExec_fault hs h

theorem foreground_fault (hs : s.faults = []) (h : foreground s = .fault f) : f.MarksItself := by
  unfold foreground at h
  split at h
  · exact exec_fault hs h
  · split at h
    · rename_i rest _
      exact exec_fault (s := { s with port := rest }) hs h
    · cases h

theorem context_fault (hs : s.faults = []) (h : context s = .fault f) : f.MarksItself := by
  unfold context at h
  split at h
  · exact exec_fault hs h
  · exact foreground_fault hs h

theorem defaultTurn_fault (hs : s.faults = []) (h : defaultTurn s = .fault f) : f.MarksItself := by
  unfold defaultTurn at h
  split at h
  · exact exec_fault hs h
  · split at h
    · exact exec_fault hs h
    · exact foreground_fault hs h

/-- The environment faults nothing. -/
theorem envStep_ne_fault {e : EnvStep} : envStep e s ≠ .fault f := by
  intro h
  cases e with
  | tableChanged =>
    simp only [envStep] at h
    split at h <;> cases h
  | key _ _ _ | bounce _ | lcdPowered | reset => cases h

theorem takeTurn_fault {u : Turn} (hs : s.faults = []) (h : takeTurn u s = .fault f) : f.MarksItself := by
  cases u with
  | go => exact defaultTurn_fault hs h
  | run n => exact context_fault (s := { s with quantum := some n }) hs h
  | enter c n => exact exec_fault (s := { s with quantum := some n }) hs h
  | env e => exact absurd h envStep_ne_fault
  | command bytes => cases h
  | busWord w =>
    simp only [takeTurn, busRequest] at h
    split at h
    · exact exec_fault hs h
    · cases h

/-! ### Stops are final (R260, R261) -/

/-- A machine that has not stopped has neither mark, -/
theorem alreadyStopped_eq_none (h : alreadyStopped s = none) : s.faults = [] ∧ s.refused = none := by
  unfold alreadyStopped at h
  split at h
  · cases h
  · split at h
    · cases h
    · exact ⟨‹_›, ‹_›⟩

/-- and one that has takes no further step: it answers the mark again. -/
theorem step_stopped {o : Host.Outcome State Fault Refusal} (h : alreadyStopped s = some o) : step s = o := by
  simp [step, schedule, h]

/-- A refused machine answers its refusal. -/
theorem alreadyStopped_refused (hs : s.faults = []) (r : Refusal) :
    alreadyStopped { s with refused := some r } = some (.refused r) := by
  simp [alreadyStopped, hs]

/-- A machine at a fault answers the first reason of its `faults`. -/
theorem alreadyStopped_faulted {r : FaultRecord} {rs : List FaultRecord} (hs : s.faults = r :: rs) :
    alreadyStopped s = some (.fault (r.leaving s)) := by
  simp [alreadyStopped, hs]

/-- A fault is its record with the state it leaves. -/
theorem Fault.record_leaving (f : Fault) : f.record.leaving f.left = f := by cases f <;> rfl

/-- The fault that marked itself is what the state it leaves answers again. -/
theorem Fault.MarksItself.alreadyStopped (h : f.MarksItself) : alreadyStopped f.left = some (.fault f) := by
  have hfirst : ∃ rs, f.left.faults = f.record :: rs := by
    rcases h with hone | ⟨w, pos, hrecord, hboth⟩
    · exact ⟨[], hone⟩
    · exact ⟨[.lcdBusy w pos], by rw [hboth, hrecord]⟩
  obtain ⟨rs, hrs⟩ := hfirst
  rw [alreadyStopped_faulted hrs, f.record_leaving]

/-- A step's fault is its turn's. -/
theorem step_fault (h1 : alreadyStopped s = none) (h : step s = .fault f) : f.MarksItself := by
  obtain ⟨hs, -⟩ := alreadyStopped_eq_none h1
  simp only [step, schedule, h1] at h
  split at h
  · cases h
  · split at h
    · exact defaultTurn_fault hs h
    · rename_i u rest _
      exact takeTurn_fault (s := { s with sched := rest }) hs h

/-- Settles O7: a refusal's mark is answered as it stands, and a fault's since it marks itself (`step_fault`). -/
theorem stopsAreFinal : Obligations.StopsAreFinal := by
  unfold Obligations.StopsAreFinal
  intro s h1
  obtain ⟨hs, -⟩ := alreadyStopped_eq_none h1
  refine ⟨fun r hr => ?_, fun f hf => ?_⟩
  · rw [hr]
    exact ⟨rfl, step_stopped (alreadyStopped_refused hs r)⟩
  · rw [hf]
    have hmarks : f.MarksItself := step_fault h1 hf
    exact ⟨rfl, step_stopped hmarks.alreadyStopped, hmarks⟩

end Sys2Proof.Machine
end

section
/-! PROOFS. The statements of 70_reset_and_hazards: no line is delivered before `KPD_INIT` enables it (R300, R303). -/

namespace Sys2Proof.Machine

variable {s t : State} {i : Instr} {k n j : Nat} {q : Option Nat} {prog : List Micro} {P : Nat → State → Prop}

/-! ### Where a command's turn ends (R49) -/

/-- A turn of the foreground ends idle after the whole program, or inside its operation, no earlier than it began: as
many positions on as micro-steps are done, but where a poll is to be repeated. -/
theorem runFg_ends (h : FgInvariant prog P) (hs : P j s) (hr : runFg i k (prog.drop j) q s = .next t) :
    ∃ n, P n t ∧ j ≤ n ∧ (t.fgpos = .idle ∧ prog.length ≤ n ∨
      ∃ l, t.fgpos = .inOp i l ∧ (.pollSlot ∉ prog → l = k + (n - j))) := by
  generalize hms : prog.drop j = ms at hr
  induction ms generalizing j k q s with
  | nil =>
    cases hr
    exact ⟨j, h.fgpos _ _ _ hs, le_rfl, .inl ⟨rfl, List.drop_eq_nil_iff.1 hms⟩⟩
  | cons m rest ih =>
    obtain ⟨hm, hrest⟩ := drop_eq_cons hms
    simp only [runFg] at hr
    split at hr
    · split at hr
      · rename_i v hv
        have hstep := h.step _ _ _ _ hm (h.fgpos _ _ _ hs) hv
        split at hr
        · cases hr
          have hpos : v.settle.fgpos = .inOp i k := congrArg State.fgpos (micro_outsideMicro hv)
          have hpoll : m = .pollSlot := of_decide_eq_true (Bool.and_elim_left ‹pollAgain m v = true›)
          exact ⟨j + 1, hstep, by omega, .inr ⟨k, hpos, fun hno => absurd (hpoll ▸ List.mem_of_getElem? hm) hno⟩⟩
        · obtain ⟨n, hn, hle, hpos⟩ := ih hstep hrest hr
          rw [show k + 1 + (n - (j + 1)) = k + (n - j) by omega] at hpos
          exact ⟨n, hn, by omega, hpos⟩
      · cases hr
      · cases hr
    · cases hr
      exact ⟨j, h.fgpos _ _ _ hs, le_rfl, .inr ⟨k, rfl, fun _ => by omega⟩⟩

/-- A command that changes the foreground's position has it idle or inside that command, before and after. -/
theorem command_fgpos (hi : i.format = .hc) (h : exec i s = .next t) :
    t.fgpos = s.fgpos ∨
      (s.fgpos = .idle ∨ ∃ l, s.fgpos = .inOp i l) ∧ (t.fgpos = .idle ∨ ∃ l, t.fgpos = .inOp i l) := by
  have hany : FgInvariant (commandProgram i) (fun _ _ => True) :=
    ⟨fun _ _ _ h => h, fun _ _ h => h, fun _ h => h, fun _ _ _ _ _ h _ => h⟩
  have hends {k j : Nat} {q : Option Nat} {v : State} (hr : runFg i k ((commandProgram i).drop j) q v = .next t) :
      t.fgpos = .idle ∨ ∃ l, t.fgpos = .inOp i l := by
    obtain ⟨-, -, -, ⟨hidle, -⟩ | ⟨l, hl, -⟩⟩ := runFg_ends hany trivial hr
    · exact .inl hidle
    · exact .inr ⟨l, hl⟩
  obtain ⟨checks, hcmd⟩ := exec_command hi h
  rcases hostCommand_cases hcmd with rfl | ⟨hidle, hrun⟩ | ⟨k, hat, hrun⟩
  · exact .inl rfl
  · exact .inr ⟨.inl hidle.2, hends (j := 0) hrun⟩
  · exact .inr ⟨.inr ⟨k, hat.2⟩, hends hrun⟩

/-- A command without a poll that is not taken leaves all as it was; else its turn ends idle after the whole program, or
at the micro-step after those done. -/
theorem command_ends (hi : i.format = .hc) (h : FgInvariant (commandProgram i) P) (hs : P (commandDone s) s)
    (h0 : s.fgpos ≠ .inOp i 0) (hpoll : .pollSlot ∉ commandProgram i) (hr : exec i s = .next t) :
    t = s.turnOver ∨
      ∃ n, P n t ∧ (t.fgpos = .idle ∧ (commandProgram i).length ≤ n ∨ t.fgpos = .inOp i (n + 1)) := by
  obtain ⟨checks, hcmd⟩ := exec_command hi hr
  rcases hostCommand_cases hcmd with rfl | ⟨hidle, hrun⟩ | ⟨k, hat, hrun⟩
  · exact .inl rfl
  · rw [commandDone_idle hidle.2] at hs
    obtain ⟨n, hn, -, hpos | ⟨l, hl, hpos⟩⟩ := runFg_ends (j := 0) h (h.accept _ (h.turnOver _ _ hs)) hrun
    · exact .inr ⟨n, hn, .inl hpos⟩
    · exact .inr ⟨n, hn, .inr (by rw [hl, hpos hpoll, Nat.sub_zero, Nat.add_comm])⟩
  · rw [commandDone_at hat.2] at hs
    have hk : k ≠ 0 := fun h' => h0 (h' ▸ hat.2)
    obtain ⟨n, hn, hle, hpos | ⟨l, hl, hpos⟩⟩ := runFg_ends h (h.turnOver _ _ hs) hrun
    · exact .inr ⟨n, hn, .inl hpos⟩
    · exact .inr ⟨n, hn, .inr (by rw [hl, hpos hpoll, show k + (n - (k - 1)) = n + 1 by omega])⟩

/-! ### Lines that are not delivered (R46, R300) -/

/-- The keypad is initialized, or no line is delivered: what holds of the keypad but while `KPD_INIT` stands at K9 or
K10. -/
def InitGates (s : State) : Prop := s.kpdInit = true ∨ ∀ c : Col, irqOn s.cfg.layout s.regs.irqen c = false

/-- What `InitGates` speaks of is as before. -/
structure GateKept (s t : State) : Prop where
  cfg : t.cfg = s.cfg
  kpdInit : t.kpdInit = s.kpdInit
  irqen : t.regs.irqen = s.regs.irqen

theorem InitGates.kept (hs : InitGates s) (h : GateKept s t) : InitGates t := by
  rw [InitGates, h.kpdInit, h.cfg, h.irqen]
  exact hs

/-- `KPD_INIT` alone writes `IRQEN` or `kpd_init` (R46, R51). -/
theorem exec_gateKept (hi : i ≠ .kpdInit) (h : exec i s = .next t) : GateKept s t := by
  cases hf : i.format with
  | hc =>
    cases h7 : i.opcode.getLsbD 7 with
    | false =>
      obtain ⟨hregs, -, -, -, ⟨hflag, -⟩, ⟨hcfg, -⟩⟩ := cellCommand_frame hf h7 hi h
      exact ⟨hcfg, hflag, (congrArg Regs.irqen hregs :)⟩
    | true =>
      have hkept := lcdCommand_kept hf h7 h
      exact ⟨hkept.cfg, hkept.kept State.kpdInit, hkept.kept (·.regs.irqen)⟩
  | irq =>
    obtain ⟨c, rfl⟩ := isrInstr_of_format hf
    exact ⟨handler_outside h State.cfg, handler_outside h State.kpdInit, handler_outside h (·.regs.irqen)⟩
  | lb =>
    rw [exec_bus hf] at h
    obtain ⟨_, _, _, rfl⟩ := deviceExec_deviceWrites h
    exact ⟨rfl, rfl, rfl⟩

/-- The keypad after `n` micro-steps of `KPD_INIT`: the 16th, K8's write, may deliver lines, and the 18th, K10, sets the
flag. -/
def GatedAt (n : Nat) (s : State) : Prop := n = 16 ∨ n = 17 ∨ InitGates s

theorem fgInvariant_gatedAt : FgInvariant kpdInitProgram GatedAt where
  fgpos _ _ _ h := h
  turnOver _ _ h := h
  accept _ h := h
  step n m a b hm ha hab := by
    cases initStep_of_micro hm hab with
    | clearSlot => exact .inr (.inl rfl)
    | setKpdInit => exact .inr (.inr (.inl rfl))
    | read j r u _ hj =>
      obtain ⟨hlt, -⟩ := initUpdates_role hj
      have hgates : InitGates a := (ha.resolve_left (by omega)).resolve_left (by omega)
      exact .inr (.inr hgates)
    | write j r u _ hj =>
      obtain ⟨hlt, -⟩ := initUpdates_role hj
      have hgates : InitGates a := (ha.resolve_left (by omega)).resolve_left (by omega)
      by_cases h7 : j = 7
      · exact .inl (by omega)
      · have hne : Role.irqen ≠ r := fun h' => h7 (initUpdates_inj (h' ▸ hj) (u' := .irqOn) rfl)
        exact .inr (.inr (hgates.kept ⟨rfl, rfl, Regs.get_set_of_ne _ hne _⟩))

/-! ### No handler before K8 (R300, R303) -/

/-- Beside `InitGates`, `UndeliveredBeforeInit` speaks of the foreground's position. -/
theorem undeliveredBeforeInit_iff : UndeliveredBeforeInit s ↔
    s.fgpos ≠ .inOp .kpdInit 0 ∧ (s.fgpos = .inOp .kpdInit 17 ∨ s.fgpos = .inOp .kpdInit 18 ∨ InitGates s) := by
  rw [InitGates]
  tauto

theorem UndeliveredBeforeInit.kept (hs : UndeliveredBeforeInit s) (hpos : t.fgpos = s.fgpos) (h : GateKept s t) :
    UndeliveredBeforeInit t := by
  rw [undeliveredBeforeInit_iff] at hs ⊢
  rw [hpos]
  exact ⟨hs.1, hs.2.imp_right (Or.imp_right (InitGates.kept · h))⟩

/-- Away from `KPD_INIT` it is `InitGates`. -/
theorem undeliveredBeforeInit_away (hpos : ∀ k, s.fgpos ≠ .inOp .kpdInit k) :
    UndeliveredBeforeInit s ↔ InitGates s := by
  simp [undeliveredBeforeInit_iff, hpos]

/-- `KPD_INIT` keeps it, by what holds along its program. -/
theorem kpdInit_undelivered (hs : UndeliveredBeforeInit s) (h : exec .kpdInit s = .next t) :
    UndeliveredBeforeInit t := by
  obtain ⟨h0, hgates⟩ := undeliveredBeforeInit_iff.1 hs
  have hstart : GatedAt (commandDone s) s := by
    rcases hgates with hk9 | hk10 | hgates
    · exact .inl (commandDone_at hk9)
    · exact .inr (.inl (commandDone_at hk10))
    · exact .inr (.inr hgates)
  rcases command_ends (i := .kpdInit) rfl fgInvariant_gatedAt hstart h0 (by decide) h with
    rfl | ⟨n, hn, ⟨hidle, hlen⟩ | hpos⟩
  · exact hs
  · have h18 : 18 ≤ n := hlen
    exact (undeliveredBeforeInit_away (by simp [hidle])).2 ((hn.resolve_left (by omega)).resolve_left (by omega))
  · rw [undeliveredBeforeInit_iff, hpos]
    refine ⟨by simp, ?_⟩
    rcases hn with rfl | rfl | hgates
    · exact .inl rfl
    · exact .inr (.inl rfl)
    · exact .inr (.inr hgates)

/-- No other instruction moves the foreground to or from a position of `KPD_INIT`. -/
theorem exec_fgpos_away (hi : i ≠ .kpdInit) (h : exec i s = .next t) :
    t.fgpos = s.fgpos ∨ ∀ k, s.fgpos ≠ .inOp .kpdInit k ∧ t.fgpos ≠ .inOp .kpdInit k := by
  cases hf : i.format with
  | hc =>
    have haway {v : State} (hv : v.fgpos = .idle ∨ ∃ l, v.fgpos = .inOp i l) (k : Nat) :
        v.fgpos ≠ .inOp .kpdInit k := by
      rcases hv with hv | ⟨l, hv⟩ <;> simp [hv, hi]
    exact (command_fgpos hf h).imp_right fun ⟨hs, ht⟩ k => ⟨haway hs k, haway ht k⟩
  | irq =>
    obtain ⟨c, rfl⟩ := isrInstr_of_format hf
    exact .inl (handler_outside h State.fgpos)
  | lb =>
    rw [exec_bus hf] at h
    exact .inl (congrArg State.fgpos (deviceExec_outsideMicro h) :)

theorem exec_undelivered (hs : UndeliveredBeforeInit s) (h : exec i s = .next t) : UndeliveredBeforeInit t := by
  by_cases hi : i = .kpdInit
  · subst hi
    exact kpdInit_undelivered hs h
  · have hkept := exec_gateKept hi h
    rcases exec_fgpos_away hi h with hpos | haway
    · exact hs.kept hpos hkept
    · rw [undeliveredBeforeInit_away fun k => (haway k).1] at hs
      exact (undeliveredBeforeInit_away fun k => (haway k).2).2 (hs.kept hkept)

theorem envStep_undelivered {e : EnvStep} (hs : UndeliveredBeforeInit s) (h : envStep e s = .next t) :
    UndeliveredBeforeInit t := by
  cases e with
  | key _ _ _ | bounce _ => cases h; exact hs
  | reset => cases h; exact undeliveredBeforeInit_reset s.cfg
  | lcdPowered =>
    cases h
    unfold powerLcd
    split <;> exact hs
  | tableChanged =>
    simp only [envStep] at h
    split at h <;> cases h
    exact hs

/-- A line that is not delivered does not request (R271). -/
theorem req_undelivered {c : Col} (h : irqOn s.cfg.layout s.regs.irqen c = false) : req s c = false := by
  simp [req, h]

/-- Settles O56: `GatedAt` holds along `KPD_INIT`, and nothing else but a reset writes `IRQEN` or `kpd_init`. -/
theorem noHandlerBeforeKpdInit : Obligations.NoHandlerBeforeKpdInit := by
  unfold Obligations.NoHandlerBeforeKpdInit
  refine ⟨fun s t hs h => ?_, fun s hs hk h17 h18 c => ?_⟩
  · obtain ⟨q, port, l, hx⟩ := step_turnOf h
    have hv : UndeliveredBeforeInit { s with quantum := q, port := port, sched := l } := hs
    rcases hx with ⟨i, hx⟩ | ⟨e, hx⟩ | rfl
    · exact exec_undelivered hv hx
    · exact envStep_undelivered hv hx
    · exact hs
  · obtain ⟨-, hinit | h | h | hoff⟩ := hs
    · rw [hk] at hinit
      cases hinit
    · exact absurd h h17
    · exact absurd h h18
    · exact req_undelivered (hoff c)

end Sys2Proof.Machine
end

section
/-! PROOFS. The statements of 70_reset_and_hazards: reset in any state (R300), and `LCD_INIT` of a busy device (R222,
R304). -/

namespace Sys2Proof.Machine

variable {s t : State} {i : Instr} {ms : List Micro} {j k n d : Nat} {q : Option Nat}

/-! ### Reset in any state (R58, R300) -/

/-- The evaluation that ends a reset latches no edge: no line is selected or unmasked. -/
theorem coldReset_edges (s : State) : edges (coldReset s).spoil = 0 := by
  apply edges_of_masked
  intro c
  simp [coldReset, State.spoil, State.resetWith, Regs.reset]

theorem lcdMode_coldReset (s : State) : lcdMode (coldReset s).settle = lcdMode (State.resetWith s.cfg) :=
  lcdMode_congr rfl rfl rfl

theorem lcdOut_coldReset (s : State) : lcdOut (coldReset s).settle = lcdOut (State.resetWith s.cfg) :=
  lcdOut_congr rfl rfl rfl

theorem lcdDrives_coldReset (s : State) (p : PortPin) : lcdDrives (coldReset s).settle p = false := by
  have h : lcdDrives (coldReset s).settle p = lcdDrives (State.resetWith s.cfg) p := by
    rw [lcdDrives, lcdDrives, lcdMode_coldReset]
    rfl
  rw [h, lcdDrives_reset]

/-- After it each row of R58's table stands as it does in the state after reset. -/
theorem atReset_coldReset (s : State) : AtReset s.cfg (coldReset s).settle :=
  { atReset_resetWith s.cfg with
    pr := by
      rw [settle_regs_pr, coldReset_edges]
      exact (by decide : ((0 : Word) ||| 0).extractLsb' 0 4 = 0#4)
    lmode := fun p _ => ⟨by rw [lcdMode_coldReset, lcdField_reset], lcdDrives_coldReset s p⟩
    lodr := fun p hp => by
      rw [lcdOut_coldReset]
      exact (atReset_resetWith s.cfg).lodr p hp }

/-- Each line's remembered level is a draw, as no line is routed (R42, R58). -/
theorem coldReset_lvl (hw : s.cfg.Wired) (c : Col) :
    (coldReset s).settle.lvl.get c = Config.freeBit s.draws (8 + c.val) := by
  have hroute : routed s.cfg.layout (Regs.reset s.cfg).mux c = false := (atReset_resetWith s.cfg).mux hw c
  rw [settle_lvl_get]
  exact if_neg (by rw [Bool.not_eq_true]; exact hroute)

/-- Settles O11: a cold reset and its evaluation give the table, and keep what `coldReset` carries over. -/
theorem resetRestartsTheBlock : Obligations.ResetRestartsTheBlock := by
  unfold Obligations.ResetRestartsTheBlock
  intro s
  exact ⟨_, rfl, atReset_coldReset s, rfl, rfl, rfl, rfl, coldReset_lvl, rfl, rfl, rfl⟩

/-! ### `LCD_INIT` of a busy device (R222, R304) -/

/-- I1 and I2 do not set `lcd_init` (R51). -/
theorem LcdInitStep.lcdInit_kept (h : LcdInitStep n s t) (hn : n < 4) : t.lcdInit = s.lcdInit := by
  cases h with
  | bus | flag => omega
  | readClock | clock | readMode | direct => rfl

/-- What is left of I1 and I2 runs in a turn that is not pre-empted, and leaves `lcd_init`. -/
theorem SetUpAt.runFg_rest (h : SetUpAt s n t) (hd : n + d = 4) (hruns : RunsFor (j + d) { t with quantum := q }) :
    ∃ q' u, Machine.runFg i k ((lcdInitProgram.take 4).drop n ++ ms) q t = Machine.runFg i (k + d) ms q' u ∧
      RunsFor j { u with quantum := q' } ∧ SetUpAt s 4 u ∧ u.lcdInit = t.lcdInit := by
  induction d generalizing n k q t with
  | zero =>
    obtain rfl : n = 4 := hd
    exact ⟨q, t, rfl, hruns, h, rfl⟩
  | succ d ih =>
    have hn : n < 4 := by omega
    have hlt : n < (lcdInitProgram.take 4).length := hn
    have hm : lcdInitProgram[n]? = some (lcdInitProgram.take 4)[n] := by
      rw [List.getElem_take, ← List.getElem?_eq_getElem]
    have hpoll : ∀ m ∈ lcdInitProgram, m ≠ .pollSlot := by decide
    have hpos := h.fgpos (.inOp i k)
    obtain ⟨v, hv⟩ := hpos.goes_on hn hm
    have hst := lcdInitStep_of_micro hm hv
    obtain ⟨hrun, hruns1⟩ := runFg_lcd (ms := (lcdInitProgram.take 4).drop (n + 1) ++ ms) hruns hv
      (hpoll _ (List.mem_of_getElem? hm)) { lcdInitStep_lcdKept hst with }
      fun hq => hpos.quiet hst hn ⟨hq.wired, { hq.armed with }, { hq.calm with }, hq.idle⟩
    obtain ⟨q', u, hrest, hruns2, hu, hflag⟩ := ih (k := k + 1) (hpos.initStep hn hst).settle (by omega) hruns1
    refine ⟨q', u, ?_, hruns2, hu, hflag.trans (hst.lcdInit_kept hn)⟩
    rw [List.drop_eq_getElem_cons hlt, List.cons_append, hrun, hrest, Nat.add_right_comm, Nat.add_assoc]

/-- After I2 every line is an output, whether the device takes words or not (R48). -/
theorem SetUpAt.drives (h : SetUpAt s 4 t) (hwide : s.dev.nibble = false) {p : PortPin}
    (hp : p ∈ t.cfg.layout.lcdPins) : lcdDrives t p = true :=
  have hfree : SetUpAt { s with devBusy := .free } 4 { t with devBusy := .free } :=
    { h with kept := { h.kept with }, busy := rfl }
  (hfree.lcdCan ⟨rfl, hwide⟩).out p hp

/-- A micro-step that faults ends the turn. -/
theorem runFg_faults {m : Micro} {f : Fault} (hq : mayRun q s = true)
    (hm : micro .fg m { s with fgpos := .inOp i k } = .fault f) : runFg i k (m :: ms) q s = .fault f := by
  simp [runFg, hq, hm]

/-- W5 of a word that the lines show: `E` falls, and the word is latched in a state in which only the lines have
changed. -/
theorem busEnable_latchWord {rs : Bool} {b : Byte} (hw : s.cfg.layout.lcdPins.Nodup) (hclk : clocked s .lodr = true)
    (hout : ∀ p ∈ s.cfg.layout.lcdPins, lcdDrives s p = true)
    (h : LinesAt s j (linesBefore s.cfg.layout rs b (lcdOut s)) t) :
    ∃ v, LinesAt s j (linesWritten s.cfg.layout rs b (lcdOut s)) v ∧ v.outsideMicro = t.outsideMicro ∧
      busEnable false t = latchWord (busWord rs false b) v := by
  obtain ⟨v, hv⟩ := busLine_clocked ((h.kept.clocked .lodr).trans hclk) (fun w => setBit w t.cfg.layout.lcdE.val false)
  have hmoves : MovesLines s.cfg.layout (fun w => setBit w t.cfg.layout.lcdE.val false) := by
    rw [h.kept.cfg]
    exact movesLines_setBit (lcdE_mem _) false
  have hlines := h.changed hmoves hv
  rw [h.kept.cfg] at hlines
  have henable : enableHigh t = true := by
    rw [enableHigh, h.kept.drives, h.kept.cfg, hout _ (lcdE_mem _), h.out, linesBefore_enable hw, Bool.true_and]
  have hlevels : busLevels v = busWord rs false b :=
    busLevels_written hout (linesAfter_written hw hlines.out) hlines.kept
  exact ⟨v, hlines, busLine_outsideMicro hv, by rw [busEnable_falls henable hv, hlevels]⟩

/-- `LCD_INIT` of an idle foreground gets as far as W5 of I3's word: after I1 and I2 (`u`) and the lines' changes (`v`)
the word is latched. -/
theorem lcdInit_first_word (hw : s.cfg.Wired) (hidle : FgIdle s) (hwide : s.dev.nibble = false)
    (hruns : RunsFor 9 s) :
    ∃ u v, SetUpAt { s.turnOver with result := none } 4 u ∧ u.lcdInit = s.lcdInit ∧
      LinesAt u 4 (linesWritten u.cfg.layout false functionSetByte (lcdOut u)) v ∧ v.fgpos = .inOp .lcdInit 9 ∧
      ∀ f, latchWord 0x038 v = .fault f → exec .lcdInit s = .fault f := by
  obtain ⟨q1, u, hrun1, hruns1, hset, hflag⟩ := (SetUpAt.start { s.turnOver with result := none }).runFg_rest
    (i := .lcdInit) (k := 1) (ms := lcdInitProgram.drop 4) (j := 5) (d := 4) rfl hruns.accepted
  have hcfg : u.cfg = s.cfg := hset.kept.cfg
  obtain ⟨-, hclk⟩ := hset.clocked_lcd (by decide)
  obtain ⟨q2, w, hrun2, hruns2, hlines⟩ := runFg_linesBefore (n := 1) (i := .lcdInit) (k := 5) (rs := false)
    (b := functionSetByte) (ms := lcdInitProgram.drop 8) hclk hruns1
  obtain ⟨v, hv, hout, hlatch⟩ := busEnable_latchWord (hcfg ▸ lcdPins_nodup hw) hclk (fun p hp => hset.drives hwide hp)
    (hlines.fgpos (.inOp .lcdInit 9))
  refine ⟨u, v, hset, hflag, hv, congrArg State.fgpos hout, fun f hf => ?_⟩
  have hprog : lcdInitProgram = lcdInitProgram.take 4 ++ lcdInitProgram.drop 4 := rfl
  have hmay : mayRun q2 w = true := hruns2.mayRun
  rw [exec, execLcdInit, hostCommand_accepted hidle rfl]
  exact hrun1.trans (hrun2.trans (runFg_faults hmay (hlatch.trans hf)))

/-- Settles O36: the first word is latched (`lcdInit_first_word`) by a device that is busy (`latchWord_faults`). -/
theorem unpoweredInitFaults : Obligations.UnpoweredInitFaults := by
  unfold Obligations.UnpoweredInitFaults
  intro s hw hidle hbusy hwide hruns
  obtain ⟨u, v, hset, hflag, hv, hpos, hexec⟩ := lcdInit_first_word hw hidle hwide hruns
  have hcfg : u.cfg = s.cfg := hset.kept.cfg
  have hisr : v.isrpos = none := (hv.kept.kept (·.isrpos)).trans ((hset.kept.kept (·.isrpos)).trans hidle.1)
  have hat : v.pos = { fgpos := .inOp .lcdInit 9, isrpos := none } := by rw [State.pos, hpos, hisr]
  have hdev : v.dev = s.dev := hv.display.dev.trans hset.dev
  have hfaults : v.faults = s.faults := (hv.kept.kept (·.faults)).trans (hset.kept.kept (·.faults))
  obtain ⟨hfault, -⟩ := latchWord_faults v 0x038 (by decide) rfl
  have hstop := hfault (by rw [hdev, hwide]) (by rw [hv.busy, hset.busy]; exact hbusy)
  rw [hat, hfaults] at hstop
  have hlines : lcdOut v = linesWritten s.cfg.layout false 0x38 (lcdOut s) := by
    have hout : lcdOut u = lcdOut s := hset.out
    rw [hv.out, hcfg, hout]
    rfl
  refine ⟨_, hexec _ hstop, rfl, hpos, ?_, ?_, fun p hp => ?_, linesAfter_written (lcdPins_nodup hw) hlines, hdev,
    hv.display.vram.trans hset.vram, (hv.kept.kept (·.lcdInit)).trans hflag,
    (hv.kept.kept (·.slot)).trans (hset.kept.kept (·.slot))⟩
  · exact congrArg (· ++ [Event.latch 0x038]) (hv.events.trans hset.events)
  · exact hv.kept.clken.trans hset.clken
  · exact (hv.kept.drives p).trans (hset.drives hwide (hcfg ▸ hp))

end Sys2Proof.Machine
end
